-- ==== Sys2Proof/Word.lean ====
section
/-! DEFINITION. The vector widths the PS-FCC's spec uses (10_state.md R22). -/

namespace Sys2Proof

/-- A byte on a port or in a frame: "an unsigned 8-bit value taken verbatim" (R9). -/
abbrev Byte := BitVec 8

/-- A 16-bit register field: SCALE, BIAS, OFFSET (R22). -/
abbrev Half := BitVec 16

/-- A 32-bit word of the register window (R51) and a command word (R84). -/
abbrev Word := BitVec 32

end Sys2Proof
end

