-- ==== Sys2Proof/Syntax.lean ====
section
/-! DEFINITION. What can be said to the PS-FCC: its ten commands (30_encoding.md R86), the fields of a command word
(R84), the registers of the window (20_memory.md R55), the steps of the four agents (60_exceptions.md R196), and
the lines of a host program (R91, R92). -/

namespace Sys2Proof

/-- The scalar channels c = 0, 1, 2 (R8). "Channel number 3 is not a channel", so it is no term here (log 11). -/
inductive Channel where
  | distance
  | yaw
  | pitch
  deriving DecidableEq, Repr

/-- The commands of PS-FCC command set 1: one constructor for each row of opcode_table.json (R86). -/
inductive Instr where
  | nop
  | buildReq
  | parse
  | rxClear
  | cal (c : Channel)
  | val (c : Channel)
  | calval (c : Channel)
  | decode
  | clrStatus
  | lockCfg
  deriving DecidableEq, Repr

/-- The three fields of a command word, before any check (R84, R85). -/
structure CmdFields where
  /-- OP, bits 7:0. -/
  op : BitVec 8
  /-- CH, bits 9:8. -/
  ch : BitVec 2
  /-- RSV, bits 31:10. -/
  rsv : BitVec 22
  deriving DecidableEq, Repr

/-- Why a word is illegal: the four grounds of R87. Which of them holds is not observable (log 12). -/
inductive IllegalWord where
  /-- R87 (a): RSV is not 0. -/
  | reservedBits
  /-- R87 (b): OP is one of 0x0A to 0xFF. -/
  | unassignedOpcode
  /-- R87 (c): a command that takes no channel has CH ≠ 0. -/
  | channelNotTaken
  /-- R87 (d): a channel command has CH = 3. -/
  | noSuchChannel
  deriving DecidableEq, Repr

/-- The eight registers of one scalar channel, in the window's order (R22, R55). -/
inductive ChanReg where
  | raw
  | scale
  | bias
  | offset
  | min
  | max
  | calv
  | out
  deriving DecidableEq, Repr

/-- The registers of the window (R55). -/
inductive Reg where
  | cmd
  | status
  | reqFrame
  | chan (c : Channel) (k : ChanReg)
  | bank (i : Fin 8)
  deriving DecidableEq, Repr

/-- The size of a host access: 1, 2 or 4 bytes (R51). -/
inductive Size where
  | one
  | two
  | four
  deriving DecidableEq, Repr

/-- The direction of a host access (R51). -/
inductive Dir where
  | read
  | write
  deriving DecidableEq, Repr

/-- One step of one of the four agents (R196). A host access names a host address; the window starts at
BLOCK_BASE (R51). -/
inductive AgentStep where
  /-- The host's `MemRead` (R52). -/
  | hostRead (addr : Nat) (n : Size)
  /-- The host's `MemWrite` (R53). -/
  | hostWrite (addr : Nat) (n : Size) (v : Word)
  /-- The receiver's `rx_push(b)` (R100). -/
  | rxPush (b : Byte)
  /-- The transmitter's `tx_take()` (R104). -/
  | txTake
  /-- The reset agent's `reset()` (R210). -/
  | reset
  deriving DecidableEq, Repr

/-- One line of a host program (R91) or a pseudo-instruction (R92), without the expected result. -/
inductive Line where
  /-- `WR off, val`. -/
  | wr (off : BitVec 8) (v : Word)
  /-- `RD off`. -/
  | rd (off : BitVec 8)
  /-- `RDW off, n`. -/
  | rdw (off : BitVec 8) (n : Size)
  /-- `RX b0 b1 …`. -/
  | rx (bytes : List Byte)
  /-- `TX n`. -/
  | tx (n : Nat)
  /-- `RESET`. -/
  | reset
  /-- A command by its mnemonic: `WR CMD, w` with w the command's word. -/
  | command (i : Instr)
  /-- `SETOFF ch, q`: q is a code, an integer. -/
  | setOff (c : Channel) (q : Int)
  /-- `SETRAW ch, b`. -/
  | setRaw (c : Channel) (b : Byte)
  deriving DecidableEq, Repr

end Sys2Proof
end

