-- ==== Sys2Proof/Decode.lean ====
section
/-! DEFINITION. The command word (30_encoding.md R84 to R89): the decoder, total on 32-bit words, then the encoder. -/

namespace Sys2Proof

/-- The channel a CH field names (R84): 0 distance, 1 yaw, 2 pitch, 3 illegal. -/
def Channel.ofCh (ch : BitVec 2) : Option Channel :=
  match ch.toNat with
  | 0 => some .distance
  | 1 => some .yaw
  | 2 => some .pitch
  | _ => none

/-- A channel's number (R8), as the CH field. -/
def Channel.toCh : Channel → BitVec 2
  | .distance => 0
  | .yaw => 1
  | .pitch => 2

/-- Operand assembly: op = word[7:0], ch = word[9:8], rsv = word[31:10] (R85). -/
def splitWord (w : Word) : CmdFields :=
  { op := w.extractLsb' 0 8, ch := w.extractLsb' 8 2, rsv := w.extractLsb' 10 22 }

/-- A command that takes no channel requires CH = 0 (R86). -/
def plainOp (ch : BitVec 2) (i : Instr) : Except IllegalWord Instr :=
  if ch = 0 then .ok i else .error .channelNotTaken

/-- A channel command takes CH ≠ 3 (R86). -/
def channelOp (ch : BitVec 2) (f : Channel → Instr) : Except IllegalWord Instr :=
  match Channel.ofCh ch with
  | some c => .ok (f c)
  | none => .error .noSuchChannel

/-- The opcode map on op and ch, once rsv = 0 (R86, R89). -/
def decodeOp (op : BitVec 8) (ch : BitVec 2) : Except IllegalWord Instr :=
  match op.toNat with
  | 0x00 => plainOp ch .nop
  | 0x01 => plainOp ch .buildReq
  | 0x02 => plainOp ch .parse
  | 0x03 => plainOp ch .rxClear
  | 0x04 => channelOp ch .cal
  | 0x05 => channelOp ch .val
  | 0x06 => channelOp ch .calval
  | 0x07 => plainOp ch .decode
  | 0x08 => plainOp ch .clrStatus
  | 0x09 => plainOp ch .lockCfg
  | _ => .error .unassignedOpcode

/-- R89's decoder: total on 32-bit words, an illegal word rejected with its ground. -/
def decode (w : Word) : Except IllegalWord Instr :=
  let f := splitWord w
  if f.rsv ≠ 0 then .error .reservedBits else decodeOp f.op f.ch

/-- The instruction read from a table row's bits: a command is one 32-bit word (R90). Bits from nbits on are 0. -/
def decodeTableWord (nbits w : Nat) : Option Instr :=
  let bits := w % 2 ^ nbits
  if bits < 2 ^ 32 then
    match decode (BitVec.ofNat 32 bits) with
    | .ok i => some i
    | .error _ => none
  else none

/-- word = {RSV = 0[21:0], CH[1:0], OP[7:0]} = (CH << 8) | OP (R84). -/
def cmdWord (op : BitVec 8) (ch : BitVec 2) : Word := (0 : BitVec 22) ++ ch ++ op

/-- R89's encoder, from the opcode map of R86. -/
def encode : Instr → Word
  | .nop => cmdWord 0x00 0
  | .buildReq => cmdWord 0x01 0
  | .parse => cmdWord 0x02 0
  | .rxClear => cmdWord 0x03 0
  | .cal c => cmdWord 0x04 c.toCh
  | .val c => cmdWord 0x05 c.toCh
  | .calval c => cmdWord 0x06 c.toCh
  | .decode => cmdWord 0x07 0
  | .clrStatus => cmdWord 0x08 0
  | .lockCfg => cmdWord 0x09 0

end Sys2Proof
end

