-- ==== Sys2Proof/Config.lean ====
section
/-! DEFINITION. What a platform fixes (00_scope.md R7, 60_exceptions.md R198), and the one value the spec
leaves free (10_state.md R34). -/

namespace Sys2Proof

/-- The implementation parameters (R7) and how many hosts share the block (R198).
A state carries them; no step changes them. `Params.wf` (WellFormed.lean) is their constraint. -/
structure Params where
  /-- DEN_D: the distance code's denominator. -/
  denD : Nat
  /-- DEN_Y: the yaw code's denominator. -/
  denY : Nat
  /-- DEN_P: the pitch code's denominator. -/
  denP : Nat
  /-- BLOCK_BASE: the host byte address of offset 0x00 (R51, R63). -/
  blockBase : Nat
  /-- How many hosts drive the block. "Two hosts sharing one block are outside this spec" (R198). -/
  hosts : Nat
  deriving DecidableEq, Repr

/-- R7's defaults. The spec gives BLOCK_BASE no default: DESIGN CHOICE 0, unsafe (log 1). -/
def Params.default : Params := { denD := 10, denY := 2, denP := 2, blockBase := 0, hosts := 1 }

/-- FREE VALUE (log 7): the contents of rx_buf after the n-th later reset, "unspecified and unobservable"
(R34, R39, I3). It has no body: nothing in Lean can evaluate it. -/
opaque Config.rxBufAfterReset : Nat → Vector Byte 14

end Sys2Proof
end

