-- ==== Sys2Proof/Machine/Defaults.lean ====
section
/-! DEFINITION. The default configuration of a channel, in code units (10_state.md R29): the reset values of SCALE,
BIAS, MIN and MAX (R39). -/

namespace Sys2Proof.Machine

/-- DEN_c: the denominator of channel c's code (R7, R10). -/
def den (p : Params) : Channel → Nat
  | .distance => p.denD
  | .yaw => p.denY
  | .pitch => p.denP

/-- SCALE: DEN_D / 10, DEN_Y / 2, DEN_P / 2 (R29). -/
def defaultScale (p : Params) : Channel → Half
  | .distance => BitVec.ofNat 16 (p.denD / 10)
  | .yaw => BitVec.ofNat 16 (p.denY / 2)
  | .pitch => BitVec.ofNat 16 (p.denP / 2)

/-- BIAS: 0, −40·DEN_Y, −40·DEN_P (R29). -/
def defaultBias (p : Params) : Channel → Half
  | .distance => 0
  | .yaw => BitVec.ofInt 16 (-40 * p.denY)
  | .pitch => BitVec.ofInt 16 (-40 * p.denP)

/-- MIN: 0, −30·DEN_Y, −30·DEN_P (R29). -/
def defaultMin (p : Params) : Channel → Word
  | .distance => 0
  | .yaw => BitVec.ofInt 32 (-30 * p.denY)
  | .pitch => BitVec.ofInt 32 (-30 * p.denP)

/-- MAX: 41·DEN_D / 2, 30·DEN_Y, 30·DEN_P (R29). -/
def defaultMax (p : Params) : Channel → Word
  | .distance => BitVec.ofNat 32 (41 * p.denD / 2)
  | .yaw => BitVec.ofNat 32 (30 * p.denY)
  | .pitch => BitVec.ofNat 32 (30 * p.denP)

end Sys2Proof.Machine
end

