-- ==== Sys2Proof/Machine/State.lean ====
section
/-! DEFINITION. The state of the block and of what stands around it, as plain data: the spec's own state
(10_state.md R22 to R38), then the model's own fields (INVENTORY.md, "State"). And the state after reset (R39). -/

namespace Sys2Proof.Machine

/-- One thing for each scalar channel. -/
structure PerChannel (α : Type) where
  distance : α
  yaw : α
  pitch : α
  deriving DecidableEq, Repr

/-- The eight registers of one channel at their stored widths (R22). -/
structure ChanRegs where
  raw : Byte
  scale : Half
  bias : Half
  offset : Half
  min : Word
  max : Word
  calv : Word
  out : Word
  deriving DecidableEq, Repr

/-- The response of a host access (R52, R53). -/
inductive Resp where
  | ok
  | err
  deriving DecidableEq, Repr

/-- What a host access returned: `MemRead` a pair (data, resp) (R52), `MemWrite` a resp (R53). -/
inductive HostReply where
  | read (data : Word) (resp : Resp)
  | write (resp : Resp)
  deriving DecidableEq, Repr

/-- The machine stops. No error of the block is one of these: an error is a next state (R181). -/
inductive Fault where
  /-- Raised by `txTake` when the schedule asks for tx_take while tx_pending = 0: "While tx_pending = 0 the
  transmitter has no step" (R105). Safe (log 4). -/
  | transmitterHasNoStep
  deriving DecidableEq, Repr

/-- The model gives no meaning. No command ends in one of these. -/
inductive Refusal where
  /-- An instruction without a meaning yet, by its mnemonic. Raised by no arm of `exec`. Safe. -/
  | notModelled (mnemonic : String)
  /-- Raised by `step` when the parameters break R7, or when there is not exactly one host (R198):
  "a configuration that breaks a constraint is refused". Safe. -/
  | badConfiguration
  /-- Raised by `step` for any step but reset before the first reset (R211, I4). Safe (log 8). -/
  | beforeFirstReset
  /-- Raised by `agentStep` for a host access whose address is not in the block's window: "The block fixes
  nothing of the host's address space" beyond it (R63). Safe (log 9). -/
  | outsideTheWindow
  deriving DecidableEq, Repr

/-- The whole state. -/
structure State where
  /-- RAW, SCALE, BIAS, OFFSET, MIN, MAX, CALV, OUT of each channel (R22). -/
  chan : PerChannel ChanRegs
  /-- BANK(0..7) (R31). -/
  bank : Vector Byte 8
  /-- STATUS.FRAME_OK (R32). -/
  frameOk : Bool
  /-- STATUS.ERR_SHORT_FRAME, sticky (R32). -/
  errShortFrame : Bool
  /-- STATUS.ERR_ILLEGAL_CMD, sticky (R32). -/
  errIllegalCmd : Bool
  /-- STATUS.ERR_BUS, sticky (R32). -/
  errBus : Bool
  /-- STATUS.ERR_CFG_LOCKED, sticky (R32). -/
  errCfgLocked : Bool
  /-- STATUS.ERR_TX_OVERRUN, sticky (R32). -/
  errTxOverrun : Bool
  /-- STATUS.OOR[c] (R32). -/
  oor : PerChannel Bool
  /-- STATUS.SF_LEN (R32). -/
  sfLen : BitVec 8
  /-- rx_buf[0..13], hidden (R34). -/
  rxBuf : Vector Byte 14
  /-- rx_count, shown as STATUS.RX_COUNT (R35). -/
  rxCount : BitVec 8
  /-- tx_pending, shown as STATUS.TX_BUSY (R36). -/
  txPending : Bool
  /-- tx_idx, hidden (R36). -/
  txIdx : BitVec 2
  /-- cfg_lock, shown as STATUS.CFG_LOCK (R37). -/
  cfgLock : Bool
  /-- MODEL'S OWN: the parameters the block was built with (R7, R198). -/
  params : Params
  /-- MODEL'S OWN: the block has been reset since power-up (R211). -/
  hasReset : Bool
  /-- MODEL'S OWN: the counter the free value of rx_buf is drawn with (log 7). -/
  resetCount : Nat
  /-- MODEL'S OWN: the agents' steps to come, the next one first (R196, log 2). -/
  pending : List AgentStep
  /-- MODEL'S OWN: what the host's accesses returned, oldest first (log 5). -/
  replies : List HostReply
  /-- MODEL'S OWN: the bytes the transmitter took, oldest first (log 5). -/
  sent : List Byte
  deriving DecidableEq, Repr

/-- A channel's registers after reset (R39): the defaults of R29, and 0 in RAW, OFFSET, CALV and OUT. -/
def resetRegs (p : Params) (c : Channel) : ChanRegs :=
  { raw := 0, scale := defaultScale p c, bias := defaultBias p c, offset := 0,
    min := defaultMin p c, max := defaultMax p c, calv := 0, out := 0 }

/-- The state right after reset of a block built with parameters p (R39). rx_buf is unspecified there
(R34): DESIGN CHOICE 0, unobservable (log 6). -/
def State.resetWith (p : Params) : State :=
  { chan := ⟨resetRegs p .distance, resetRegs p .yaw, resetRegs p .pitch⟩
    bank := Vector.replicate 8 0
    frameOk := false
    errShortFrame := false
    errIllegalCmd := false
    errBus := false
    errCfgLocked := false
    errTxOverrun := false
    oor := ⟨false, false, false⟩
    sfLen := 0
    rxBuf := Vector.replicate 14 0
    rxCount := 0
    txPending := false
    txIdx := 0
    cfgLock := false
    params := p
    hasReset := true
    resetCount := 0
    pending := []
    replies := []
    sent := [] }

/-- The state right after reset at the default parameters (R7, R39). -/
def State.reset : State := State.resetWith Params.default

end Sys2Proof.Machine
end

