-- ==== Sys2Proof/Machine/Operands.lean ====
section
/-! DEFINITION. What a command or an access reads: a channel's registers (10_state.md R22), the register map
(20_memory.md R55), the request frame (30_encoding.md R82), and the calibrator's two functions (41_calibrator.md
R130, R134). -/

namespace Sys2Proof.Machine

/-- Channel c's thing. -/
def PerChannel.get {α : Type} (p : PerChannel α) : Channel → α
  | .distance => p.distance
  | .yaw => p.yaw
  | .pitch => p.pitch

/-- Channel c's thing replaced, the other channels' kept. -/
def PerChannel.set {α : Type} (p : PerChannel α) (c : Channel) (a : α) : PerChannel α :=
  match c with
  | .distance => { p with distance := a }
  | .yaw => { p with yaw := a }
  | .pitch => { p with pitch := a }

/-- Channel c's registers. -/
def State.regs (s : State) (c : Channel) : ChanRegs := s.chan.get c

/-- Channel c's registers replaced. -/
def State.setRegs (s : State) (c : Channel) (r : ChanRegs) : State :=
  { s with chan := s.chan.set c r }

/-- oor[c] replaced (R32). -/
def State.setOor (s : State) (c : Channel) (b : Bool) : State :=
  { s with oor := s.oor.set c b }

/-! ## The register map (R55) -/

/-- The place of a register inside its channel's 32 bytes: "in the order RAW, SCALE, BIAS, OFFSET, MIN, MAX,
CALV, OUT" (R55). -/
def chanRegOffset : ChanReg → Nat
  | .raw => 0x00
  | .scale => 0x04
  | .bias => 0x08
  | .offset => 0x0C
  | .min => 0x10
  | .max => 0x14
  | .calv => 0x18
  | .out => 0x1C

/-- A register's offset in the window (R55): channel c's register at +k lies at 0x40 + 0x20·c + k, BANK(i) at
0xC0 + 4·i. -/
def regOffset : Reg → BitVec 8
  | .cmd => 0x00
  | .status => 0x04
  | .reqFrame => 0x08
  | .chan c k => BitVec.ofNat 8 (0x40 + 0x20 * c.toCh.toNat + chanRegOffset k)
  | .bank i => BitVec.ofNat 8 (0xC0 + 4 * i.val)

/-- One channel's registers. -/
def chanRegs (c : Channel) : List Reg :=
  [.chan c .raw, .chan c .scale, .chan c .bias, .chan c .offset,
   .chan c .min, .chan c .max, .chan c .calv, .chan c .out]

/-- The rows of R55's table. -/
def allRegs : List Reg :=
  [.cmd, .status, .reqFrame]
    ++ chanRegs .distance ++ chanRegs .yaw ++ chanRegs .pitch
    ++ [.bank 0, .bank 1, .bank 2, .bank 3, .bank 4, .bank 5, .bank 6, .bank 7]

/-- The register at an offset, if R55's table has the offset; the others are reserved (R56). -/
def regAt (a : BitVec 8) : Option Reg := allRegs.find? fun r => regOffset r == a

/-- Whether the table's access column allows a direction at a register (R55). RWL allows a write; the lock is
a check of its own (R54). -/
def accessAllowed : Dir → Reg → Bool
  | .read, .cmd => false
  | .read, _ => true
  | .write, .cmd => true
  | .write, .status => false
  | .write, .reqFrame => false
  | .write, .chan _ .out => false
  | .write, .chan _ _ => true
  | .write, .bank _ => false

/-- The registers marked L: SCALE, BIAS, MIN and MAX (R55, R58). -/
def lockable : Reg → Bool
  | .chan _ .scale => true
  | .chan _ .bias => true
  | .chan _ .min => true
  | .chan _ .max => true
  | _ => false

/-- The offset a host address has in the window, if it lies in the window (R51). -/
def windowOffset (p : Params) (addr : Nat) : Option (BitVec 8) :=
  if p.blockBase ≤ addr ∧ addr < p.blockBase + 256 then some (BitVec.ofNat 8 (addr - p.blockBase))
  else none

/-! ## The request frame -/

/-- RequestFrame `[0x52, 0x01, 0x00, 0x53]` (R82): byte k is the k-th sent. -/
def reqByte (k : BitVec 2) : Byte :=
  match k.toNat with
  | 0 => 0x52
  | 1 => 0x01
  | 2 => 0x00
  | _ => 0x53

/-- REQ_FRAME: byte k of the frame at bits[8k+7:8k] (R33, R60). -/
def reqFrameWord : Word := reqByte 3 ++ reqByte 2 ++ reqByte 1 ++ reqByte 0

/-! ## The calibrator's functions, on ℤ -/

/-- calib(c, raw) = zext(RAW)·zext(SCALE) + sext(BIAS) + sext(OFFSET), exact (R130, R131). -/
def calib (r : ChanRegs) : Int :=
  (r.raw.toNat : Int) * r.scale.toNat + r.bias.toInt + r.offset.toInt

/-- in_range(c, v): sext(MIN) ≤ v ≤ sext(MAX), both bounds inclusive (R134). -/
def inRange (r : ChanRegs) (v : Int) : Bool := decide (r.min.toInt ≤ v) && decide (v ≤ r.max.toInt)

end Sys2Proof.Machine
end

