-- ==== Sys2Proof/Machine/Flags.lean ====
section
/-! DEFINITION. The STATUS word (10_state.md R32), the block's only flags: its bits live in State once, and the word
is computed from them. -/

namespace Sys2Proof.Machine

/-- STATUS bits 7:0: { cfg_lock, tx_pending, err_tx_overrun, err_cfg_locked, err_bus, err_illegal_cmd,
err_short_frame, frame_ok } (R32). -/
def statusLow (s : State) : BitVec 8 :=
  BitVec.ofBool s.cfgLock ++ BitVec.ofBool s.txPending ++ BitVec.ofBool s.errTxOverrun
    ++ BitVec.ofBool s.errCfgLocked ++ BitVec.ofBool s.errBus ++ BitVec.ofBool s.errIllegalCmd
    ++ BitVec.ofBool s.errShortFrame ++ BitVec.ofBool s.frameOk

/-- STATUS bits 10:8: { oor[2], oor[1], oor[0] } (R32). -/
def statusOor (s : State) : BitVec 3 :=
  BitVec.ofBool (s.oor.get .pitch) ++ BitVec.ofBool (s.oor.get .yaw) ++ BitVec.ofBool (s.oor.get .distance)

/-- A read of STATUS: { rx_count, sf_len, 0b00000, oor, low byte } (R32). -/
def statusWord (s : State) : Word :=
  s.rxCount ++ s.sfLen ++ (0 : BitVec 5) ++ statusOor s ++ statusLow s

/-- Clears the sticky error record: the five sticky bits and sf_len (R165). -/
def clearErrors (s : State) : State :=
  { s with
    errShortFrame := false
    errIllegalCmd := false
    errBus := false
    errCfgLocked := false
    errTxOverrun := false
    sfLen := 0 }

end Sys2Proof.Machine
end

