-- ==== Sys2Proof/Machine/Ops.lean ====
section
/-! DEFINITION. The block's named operations: recording an error (60_exceptions.md R181), the access check and the
window's reads and stores (20_memory.md R52 to R59), the ports' steps (40_frame_codec.md R100, R104), consuming a
frame (R108), the calibrator's two writes (41_calibrator.md R131, R136), and reset (70_reset_and_hazards.md R210). -/

namespace Sys2Proof.Machine

/-! ## Errors: the block's only exceptions -/

/-- The five errors with their info (R180 to R185). -/
inductive Error where
  /-- Cause code 1: a frame of n ≠ 14 bytes was parsed (R180). -/
  | shortFrame (n : BitVec 8)
  /-- Cause code 2: an illegal word was written to CMD (R182). -/
  | illegalCommand (w : Word)
  /-- Cause code 3: an access failed one of checks 1 to 4 (R183). -/
  | busError (a : BitVec 8)
  /-- Cause code 4: a write to a locked register (R184). -/
  | cfgLocked (a : BitVec 8)
  /-- Cause code 5: BUILD_REQ while a request is being sent (R185). -/
  | txOverrun
  deriving DecidableEq, Repr

/-- `raise E(info)`: sets E's sticky bit, and sf_len for a ShortFrame; no other info is kept (R181).
The block has no pc, mode or saved state, so this is the whole of taking an exception (R191), and there is no
return from one (R192). -/
def raise (e : Error) (s : State) : State :=
  match e with
  | .shortFrame n => { s with sfLen := n, errShortFrame := true }
  | .illegalCommand _ => { s with errIllegalCmd := true }
  | .busError _ => { s with errBus := true }
  | .cfgLocked _ => { s with errCfgLocked := true }
  | .txOverrun => { s with errTxOverrun := true }

/-! ## The register window -/

/-- `access_check(dir, a, n)`: the five tests in order, the first failure returned (R54); on success, the register. -/
def accessCheck (dir : Dir) (a : BitVec 8) (n : Size) (s : State) : Except Error Reg :=
  if n ≠ .four then .error (.busError a)
  else if a.toNat % 4 ≠ 0 then .error (.busError a)
  else
    match regAt a with
    | none => .error (.busError a)
    | some r =>
      if accessAllowed dir r = false then .error (.busError a)
      else if dir = .write ∧ lockable r = true ∧ s.cfgLock = true then .error (.cfgLocked a)
      else .ok r

/-- What a read of one channel's register returns: RAW and SCALE zero-extended, BIAS and OFFSET sign-extended,
the others as stored (R22, R55). -/
def readChanReg (r : ChanRegs) : ChanReg → Word
  | .raw => r.raw.zeroExtend 32
  | .scale => r.scale.zeroExtend 32
  | .bias => r.bias.signExtend 32
  | .offset => r.offset.signExtend 32
  | .min => r.min
  | .max => r.max
  | .calv => r.calv
  | .out => r.out

/-- `read_value`: the read value column of R55. A read of CMD fails its check, so its value here is never used
(log 13). -/
def readReg (r : Reg) (s : State) : Word :=
  match r with
  | .cmd => 0
  | .status => statusWord s
  | .reqFrame => reqFrameWord
  | .chan c k => readChanReg (s.regs c) k
  | .bank i => s.bank[i].zeroExtend 32

/-- A store to one channel's register: RAW takes v[7:0], SCALE, BIAS and OFFSET v[15:0], the others v (R55, R59).
OUT is not writable, so its arm is never used (log 13). -/
def storeChanReg (r : ChanRegs) (k : ChanReg) (v : Word) : ChanRegs :=
  match k with
  | .raw => { r with raw := v.truncate 8 }
  | .scale => { r with scale := v.truncate 16 }
  | .bias => { r with bias := v.truncate 16 }
  | .offset => { r with offset := v.truncate 16 }
  | .min => { r with min := v }
  | .max => { r with max := v }
  | .calv => { r with calv := v }
  | .out => r

/-- `store(a, v)`: the write effect column of R55. Only a channel's registers are stored to (log 13). -/
def storeReg (r : Reg) (v : Word) (s : State) : State :=
  match r with
  | .chan c k => s.setRegs c (storeChanReg (s.regs c) k v)
  | _ => s

/-- Records what a host access returned (log 5). -/
def answer (reply : HostReply) (s : State) : State := { s with replies := s.replies ++ [reply] }

/-- `MemRead(a, n)` (R52): a failed check raises and returns (0, ERR); else (read value, OK), with no effect on
the block. -/
def memRead (a : BitVec 8) (n : Size) (s : State) : State :=
  match accessCheck .read a n s with
  | .error e => answer (.read 0 .err) (raise e s)
  | .ok r => answer (.read (readReg r s) .ok) s

/-! ## The ports -/

/-- rx_buf[n] <- b if n < 14: "the 15th and later bytes after a clear are counted but not stored" (R100). -/
def storeByte (buf : Vector Byte 14) (n : BitVec 8) (b : Byte) : Vector Byte 14 :=
  if h : n.toNat < 14 then buf.set n.toNat b h else buf

/-- rx_count + 1, but "once rx_count reaches 255 it stays at 255" (R100). -/
def countByte (n : BitVec 8) : BitVec 8 := if n.toNat < 255 then n + 1 else n

/-- `rx_push(b)` (R100). -/
def rxPush (b : Byte) (s : State) : State :=
  { s with rxBuf := storeByte s.rxBuf s.rxCount b, rxCount := countByte s.rxCount }

/-- `tx_take()` while tx_pending = 1 (R104): byte tx_idx leaves, and after byte 3 the request is done. -/
def takeByte (s : State) : State :=
  let b := reqByte s.txIdx
  if s.txIdx = 3 then { s with txPending := false, txIdx := 0, sent := s.sent ++ [b] }
  else { s with txIdx := s.txIdx + 1, sent := s.sent ++ [b] }

/-- The transmitter's step, enabled iff tx_pending = 1 (R104, R105). -/
def txTake (s : State) : Host.Outcome State Fault Refusal :=
  if s.txPending then .next (takeByte s) else .fault .transmitterHasNoStep

/-! ## The frame -/

/-- The fields of a 14-byte frame (R81): bytes 2, 3, 4 to RAW(0..2), bytes 5 to 12 to BANK(0..7). -/
def loadFrame (s : State) : State :=
  { s with
    chan :=
      { distance := { s.chan.distance with raw := s.rxBuf[2] }
        yaw := { s.chan.yaw with raw := s.rxBuf[3] }
        pitch := { s.chan.pitch with raw := s.rxBuf[4] } }
    bank := #v[s.rxBuf[5], s.rxBuf[6], s.rxBuf[7], s.rxBuf[8],
               s.rxBuf[9], s.rxBuf[10], s.rxBuf[11], s.rxBuf[12]] }

/-- Drops the received bytes: rx_count <- 0 (R108, R112). -/
def clearRx (s : State) : State := { s with rxCount := 0 }

/-- PARSE's pseudocode (R108): the frame is consumed either way; 14 bytes load the fields, any other length n
raises ShortFrame(n) and writes no field (R109). -/
def parseFrame (s : State) : State :=
  let n := s.rxCount
  if n = 14 then { loadFrame (clearRx s) with frameOk := true }
  else raise (.shortFrame n) { clearRx s with frameOk := false }

/-! ## The calibrator -/

/-- CAL's pseudocode: CALV(c) <- enc_32(calib(c, RAW(c))) (R131). -/
def calibrate (c : Channel) (s : State) : State :=
  s.setRegs c { s.regs c with calv := BitVec.ofInt 32 (calib (s.regs c)) }

/-- VAL's pseudocode: OUT(c) <- CALV(c) if in range, else the sentinel 0; oor[c] tells which (R136). -/
def validate (c : Channel) (s : State) : State :=
  let v := (s.regs c).calv
  if inRange (s.regs c) v.toInt then (s.setRegs c { s.regs c with out := v }).setOor c false
  else (s.setRegs c { s.regs c with out := 0 }).setOor c true

/-! ## Reset -/

/-- `reset()` (R210): every piece of the block's state takes its value of R39, and rx_buf is left unspecified, a
free value (log 7). The parameters, the schedule and the record of what left the block are not the block's. -/
def resetBlock (s : State) : State :=
  { State.resetWith s.params with
    rxBuf := Config.rxBufAfterReset s.resetCount
    resetCount := s.resetCount + 1
    pending := s.pending
    replies := s.replies
    sent := s.sent }

end Sys2Proof.Machine
end

