-- ==== Sys2Proof/Machine/Calibrator.lean ====
section
/-! DEFINITION. The channel calibrator's commands (41_calibrator.md R131, R136, R140). -/

namespace Sys2Proof.Machine

/-- CAL(c) (R131). -/
def execCal (c : Channel) (s : State) : Host.Outcome State Fault Refusal := .next (calibrate c s)

/-- VAL(c) (R136). -/
def execVal (c : Channel) (s : State) : Host.Outcome State Fault Refusal := .next (validate c s)

/-- CALVAL(c): CAL(c), then VAL(c) on the CALV(c) just written (R140). -/
def execCalval (c : Channel) (s : State) : Host.Outcome State Fault Refusal :=
  .next (validate c (calibrate c s))

end Sys2Proof.Machine
end

