-- ==== Sys2Proof/Machine/Codec.lean ====
section
/-! DEFINITION. The frame codec's commands (40_frame_codec.md R106 to R112). -/

namespace Sys2Proof.Machine

/-- BUILD_REQ (R106): arms the transmit sequencer, or TxOverrun while a request is being sent. -/
def execBuildReq (s : State) : Host.Outcome State Fault Refusal :=
  if s.txPending then .next (raise .txOverrun s)
  else .next { s with txPending := true, txIdx := 0 }

/-- PARSE (R108). -/
def execParse (s : State) : Host.Outcome State Fault Refusal := .next (parseFrame s)

/-- RX_CLEAR (R112). -/
def execRxClear (s : State) : Host.Outcome State Fault Refusal := .next (clearRx s)

end Sys2Proof.Machine
end

