-- ==== Sys2Proof/Machine/Control.lean ====
section
/-! DEFINITION. The control commands (42_control.md R161, R163, R165, R166). -/

namespace Sys2Proof.Machine

/-- NOP does nothing (R161). -/
def execNop (s : State) : Host.Outcome State Fault Refusal := .next s

/-- CALVAL on the three channels in the order distance, yaw, pitch (R163, R164). -/
def calvalAll (s : State) : State :=
  let s0 := validate .distance (calibrate .distance s)
  let s1 := validate .yaw (calibrate .yaw s0)
  validate .pitch (calibrate .pitch s1)

/-- DECODE (R163): PARSE; "on ShortFrame it raises and DECODE ends"; else CALVAL on every channel. -/
def execDecode (s : State) : Host.Outcome State Fault Refusal :=
  let t := parseFrame s
  if t.frameOk then .next (calvalAll t) else .next t

/-- CLR_STATUS (R165). -/
def execClrStatus (s : State) : Host.Outcome State Fault Refusal := .next (clearErrors s)

/-- LOCK_CFG: cfg_lock <- 1 (R166). -/
def execLockCfg (s : State) : Host.Outcome State Fault Refusal := .next { s with cfgLock := true }

end Sys2Proof.Machine
end

