-- ==== Sys2Proof/Machine/Dispatch.lean ====
section
/-! DEFINITION. The command dispatcher's `perform` (42_control.md R160): one arm a command. -/

namespace Sys2Proof.Machine

def exec (i : Instr) (s : State) : Host.Outcome State Fault Refusal :=
  match i with
  | .nop => Sys2Proof.Machine.execNop s
  | .buildReq => Sys2Proof.Machine.execBuildReq s
  | .parse => Sys2Proof.Machine.execParse s
  | .rxClear => Sys2Proof.Machine.execRxClear s
  | .cal c => Sys2Proof.Machine.execCal c s
  | .val c => Sys2Proof.Machine.execVal c s
  | .calval c => Sys2Proof.Machine.execCalval c s
  | .decode => Sys2Proof.Machine.execDecode s
  | .clrStatus => Sys2Proof.Machine.execClrStatus s
  | .lockCfg => Sys2Proof.Machine.execLockCfg s

end Sys2Proof.Machine
end

