-- ==== Sys2Proof/WellFormed.lean ====
section
/-! DEFINITION. The checks on what is said to the block: a command word's fields (30_encoding.md R87), the
implementation parameters (00_scope.md R7, 60_exceptions.md R198), and a host program's line (30_encoding.md R92).
A term of `Instr` needs no check of its own: channel 3 is the only operand R86 shuts out, and `Channel` has no
term for it. -/

namespace Sys2Proof

/-- The "channel op" column of the opcode map: CAL, VAL and CALVAL take CH (R86). -/
def CmdFields.takesChannel (f : CmdFields) : Bool :=
  f.op == 0x04 || f.op == 0x05 || f.op == 0x06

/-- A command word's fields are legal iff none of R87 (a) to (d) holds. -/
def CmdFields.legal (f : CmdFields) : Bool :=
  f.rsv == 0
    && f.op.toNat < 0x0A
    && (f.takesChannel || f.ch == 0)
    && !(f.takesChannel && f.ch == 3)

/-- R7's constraints on DEN_D, DEN_Y and DEN_P, and R198's one host. BLOCK_BASE has no constraint. -/
def Params.wf (p : Params) : Bool :=
  (0 < p.denD && p.denD % 10 == 0 && p.denD / 10 ≤ 65535)
    && (0 < p.denY && p.denY % 2 == 0 && p.denY ≤ 818)
    && (0 < p.denP && p.denP % 2 == 0 && p.denP ≤ 818)
    && p.hosts == 1

/-- SETOFF's code lies in [−32768, 32767] (R92); one outside it is refused (D5, I11). Every other line is
well-formed. -/
def Line.wf : Line → Bool
  | .setOff _ q => -32768 ≤ q && q ≤ 32767
  | _ => true

end Sys2Proof
end

