-- ==== Sys2Proof/Machine/Bus.lean ====
section
/-! DEFINITION. The agents' steps around the dispatcher: a command written to CMD (42_control.md R160), the host's
write (20_memory.md R53), and any agent's step (60_exceptions.md R196). -/

namespace Sys2Proof.Machine

/-- `execute_command(v)`: an illegal word raises IllegalCommand and does nothing else; a legal one is performed
(R160, R162). -/
def executeCommand (v : Word) (s : State) : Host.Outcome State Fault Refusal :=
  match decode v with
  | .error _ => .next (raise (.illegalCommand v) s)
  | .ok i => exec i s

/-- The write to CMD returns OK whatever the command did (R53, R181). -/
def answerOk (o : Host.Outcome State Fault Refusal) : Host.Outcome State Fault Refusal :=
  match o with
  | .next t => .next (answer (.write .ok) t)
  | .fault r => .fault r
  | .refused r => .refused r

/-- `MemWrite(a, n, v)` (R53): a failed check raises and returns ERR; a write to CMD executes the command; any
other write stores. -/
def memWrite (a : BitVec 8) (n : Size) (v : Word) (s : State) : Host.Outcome State Fault Refusal :=
  match accessCheck .write a n s with
  | .error e => .next (answer (.write .err) (raise e s))
  | .ok .cmd => answerOk (executeCommand v s)
  | .ok r => .next (answer (.write .ok) (storeReg r v s))

/-- One agent's step (R196). A host access outside the window is none of the block's (R63, log 9). -/
def agentStep (e : AgentStep) (s : State) : Host.Outcome State Fault Refusal :=
  match e with
  | .hostRead addr n =>
    match windowOffset s.params addr with
    | none => .refused .outsideTheWindow
    | some a => .next (memRead a n s)
  | .hostWrite addr n v =>
    match windowOffset s.params addr with
    | none => .refused .outsideTheWindow
    | some a => memWrite a n v s
  | .rxPush b => .next (rxPush b s)
  | .txTake => txTake s
  | .reset => .next (resetBlock s)

/-- The schedule's next step: parameters that break R7 or R198 are refused, and so is any step but reset before
the first reset (R211). With no step scheduled the block keeps its state: it has no step of its own (R196,
R200, log 3). -/
def stepSchedule (s : State) : Host.Outcome State Fault Refusal :=
  if s.params.wf then
    match s.pending with
    | [] => .next s
    | e :: rest =>
      if s.hasReset = true ∨ e = AgentStep.reset then agentStep e { s with pending := rest }
      else .refused .beforeFirstReset
  else .refused .badConfiguration

/-- A host program's command is placed as the schedule's next step: a 32-bit write of the word to CMD, at
BLOCK_BASE + 0x00 (R51, R86, log 10). -/
def placeCommand (w : Word) (s : State) : State :=
  { s with pending := .hostWrite s.params.blockBase .four w :: s.pending }

end Sys2Proof.Machine
end

