-- ==== Sys2Proof/Machine/Step.lean ====
section
/-! DEFINITION. One step of the machine: the next scheduled agent's step (60_exceptions.md R196). -/

namespace Sys2Proof.Machine

/-- One step. -/
def step (s : State) : Host.Outcome State Fault Refusal := stepSchedule s

/-- The state in which the very next step writes the command word w (bits from nbits on 0) to CMD. The block
fetches nothing (R68): a command arrives as a host write, so the schedule's head is all that this sets (log 10). -/
def State.withFetchWord (s : State) (nbits w : Nat) : State :=
  placeCommand (BitVec.ofNat 32 (w % 2 ^ nbits)) s

end Sys2Proof.Machine
end

