-- ==== Sys2Proof/Machine/Program.lean ====
section
/-! DEFINITION. A host program's lines as agents' steps (30_encoding.md R91, R92). -/

namespace Sys2Proof.Machine

/-- `WR off, v` with the offset given by its register's name. -/
def writeReg (p : Params) (r : Reg) (v : Word) : AgentStep :=
  .hostWrite (p.blockBase + (regOffset r).toNat) .four v

/-- The steps one line stands for. -/
def lineSteps (p : Params) : Line → List AgentStep
  | .wr off v => [.hostWrite (p.blockBase + off.toNat) .four v]
  | .rd off => [.hostRead (p.blockBase + off.toNat) .four]
  | .rdw off n => [.hostRead (p.blockBase + off.toNat) n]
  | .rx bytes => bytes.map .rxPush
  | .tx n => List.replicate n .txTake
  | .reset => [.reset]
  | .command i => [writeReg p .cmd (encode i)]
  | .setOff c q => [writeReg p (.chan c .offset) (BitVec.ofInt 32 q)]
  | .setRaw c b => [writeReg p (.chan c .raw) (b.zeroExtend 32)]

/-- A program's steps in order, or none where a line is ill-formed: an offset outside the s16 range is refused,
"never approximated" (D5, I11). -/
def programSteps (p : Params) (lines : List Line) : Option (List AgentStep) :=
  if lines.all Line.wf then some (lines.flatMap (lineSteps p)) else none

end Sys2Proof.Machine
end

