-- ==== Sys2Proof/Safety.lean ====
section
/-! DEFINITION. The terms the claims are stated in: what a run is, what a step is about to do, the invariant of every
reachable state, and what the spec's history phrases ("since the last clear", "when OUT was last written") mean. -/

namespace Sys2Proof.Machine

/-- k steps of the machine, stopping at the first fault or refusal. -/
def run : Nat → State → Host.Outcome State Fault Refusal
  | 0, s => .next s
  | k + 1, s =>
    match step s with
    | .next t => run k t
    | stopped => stopped

/-- The state right after reset with a schedule of agents' steps placed (R211, log 10). -/
def startWith (p : Params) (schedule : List AgentStep) : State :=
  { State.resetWith p with pending := schedule }

/-- The block is configured as R7 and R198 allow and has been reset (R211): every step of an agent is taken. -/
def Ready (s : State) : Prop := s.params.wf = true ∧ s.hasReset = true

/-! ## What the next step is -/

/-- The command the next step performs, if the next step is a legal write to CMD (R160). -/
def nextCommand (s : State) : Option Instr :=
  match s.pending with
  | .hostWrite addr .four v :: _ =>
    if windowOffset s.params addr = some 0 then (decode v).toOption else none
  | _ => none

/-- The next step writes an illegal word to CMD (R160, R162). -/
def nextIsIllegal (s : State) : Bool :=
  match s.pending with
  | .hostWrite addr .four v :: _ => windowOffset s.params addr == some 0 && (decode v).toOption.isNone
  | _ => false

/-- How a host access to an address of the window fails its access check, if it does (R54). -/
def accessError (dir : Dir) (addr : Nat) (n : Size) (s : State) : Option Error :=
  match windowOffset s.params addr with
  | none => none
  | some a =>
    match accessCheck dir a n s with
    | .error e => some e
    | .ok _ => none

/-- How the next step fails its access check, if it is a host access that does (R54, R57). -/
def nextAccessError (s : State) : Option Error :=
  match s.pending with
  | .hostRead addr n :: _ => accessError .read addr n s
  | .hostWrite addr n _ :: _ => accessError .write addr n s
  | _ => none

/-- The next step parses a frame of a length other than 14 (R108, R163). -/
def nextIsShortFrame (s : State) : Bool :=
  (nextCommand s == some .parse || nextCommand s == some .decode) && s.rxCount != 14

/-- The next step is the reset agent's (R210). -/
def nextIsReset (s : State) : Bool :=
  match s.pending with
  | .reset :: _ => true
  | _ => false

/-- The next step writes OUT(c): VAL, CALVAL or a DECODE of a 14-byte frame, or reset (R22, R136, R163, R210). -/
def nextWritesOut (c : Channel) (s : State) : Bool :=
  nextIsReset s || nextCommand s == some (.val c) || nextCommand s == some (.calval c)
    || (nextCommand s == some .decode && s.rxCount == 14)

/-! ## Invariants and relations -/

/-- What every step keeps: the configuration stays legal (R7), the block stays reset (R211), an idle transmit
sequencer stands at byte 0 (R104, R210), SF_LEN is never 14 (R108), and it is 0 while no ShortFrame is recorded
(R165, R180). -/
structure State.Inv (s : State) : Prop where
  configured : s.params.wf = true
  started : s.hasReset = true
  idleAtZero : s.txPending = false → s.txIdx = 0
  lengthNotFourteen : s.sfLen ≠ 14
  lengthRecorded : s.errShortFrame = false → s.sfLen = 0

/-- The five sticky bits by number: bit k is the one of cause code k + 1 (R181). -/
def sticky (k : Fin 5) (s : State) : Bool :=
  match k with
  | 0 => s.errShortFrame
  | 1 => s.errIllegalCmd
  | 2 => s.errBus
  | 3 => s.errCfgLocked
  | 4 => s.errTxOverrun

/-- Two states that differ at most in the bytes of rx_buf that were not received since the last clear (R34). -/
def SameButUnreceived (s t : State) : Prop :=
  t = { s with rxBuf := t.rxBuf } ∧
  ∀ (k : Nat) (h : k < 14), k < s.rxCount.toNat → t.rxBuf[k] = s.rxBuf[k]

/-! ## History -/

/-- The receive state holds exactly what the bytes bs, delivered since the last clear, leave there (R100, R101). -/
structure HoldsReceived (bs : List Byte) (s : State) : Prop where
  count : s.rxCount.toNat = Nat.min 255 bs.length
  stored : ∀ (k : Nat) (h : k < 14) (hb : k < bs.length), s.rxBuf[k] = bs[k]

/-- The bytes delivered since the last clear, after the next step: PARSE, DECODE, RX_CLEAR and reset clear (R101). -/
def receivedAfter (bs : List Byte) (s : State) : List Byte :=
  match s.pending with
  | .rxPush b :: _ => bs ++ [b]
  | _ =>
    if nextIsReset s || nextCommand s == some .parse || nextCommand s == some .decode
        || nextCommand s == some .rxClear then []
    else bs

/-- The bytes delivered since the last clear, after k steps. -/
def receivedSinceClear : Nat → State → List Byte → List Byte
  | 0, _, bs => bs
  | k + 1, s, bs =>
    match step s with
    | .next t => receivedSinceClear k t (receivedAfter bs s)
    | _ => bs

/-- OUT(c) is the sentinel 0 or lies within the bounds b, MIN first (R41). -/
def OutWithin (c : Channel) (b : Word × Word) (s : State) : Prop :=
  (s.regs c).out = 0 ∨ (b.1.toInt ≤ (s.regs c).out.toInt ∧ (s.regs c).out.toInt ≤ b.2.toInt)

/-- The bounds in force when OUT(c) was last written, after a step from s to t; b is what they are in s (R41). -/
def boundsAfter (c : Channel) (b : Word × Word) (s t : State) : Word × Word :=
  if nextWritesOut c s then ((t.regs c).min, (t.regs c).max) else b

/-- MIN(c) and MAX(c) as they stood when OUT(c) was last written, after k steps; b is what they are before (R41). -/
def boundsAtLastWrite (c : Channel) : Nat → State → Word × Word → Word × Word
  | 0, _, b => b
  | k + 1, s, b =>
    match step s with
    | .next t => boundsAtLastWrite c k t (boundsAfter c b s t)
    | _ => b

end Sys2Proof.Machine
end

