-- ==== Sys2Proof/Certificates/Slice0/Obligations.lean ====
section
/-! DEFINITION. The claims about the PS-FCC model, stated and not proved. Each docstring names the rule of spec/ it
formalises. `OBLIGATIONS.json` lists them. -/

open Sys2Proof Sys2Proof.Machine

/-! ## Command words -/

/-- The sixteen words of R86's opcode map decode to their commands, and R162's example words are illegal. -/
def Obligations.TableWordsDecode : Prop :=
  decode 0x00000000 = .ok .nop ∧ decode 0x00000001 = .ok .buildReq ∧ decode 0x00000002 = .ok .parse ∧
  decode 0x00000003 = .ok .rxClear ∧ decode 0x00000004 = .ok (.cal .distance) ∧
  decode 0x00000104 = .ok (.cal .yaw) ∧ decode 0x00000204 = .ok (.cal .pitch) ∧
  decode 0x00000005 = .ok (.val .distance) ∧ decode 0x00000105 = .ok (.val .yaw) ∧
  decode 0x00000205 = .ok (.val .pitch) ∧ decode 0x00000006 = .ok (.calval .distance) ∧
  decode 0x00000106 = .ok (.calval .yaw) ∧ decode 0x00000206 = .ok (.calval .pitch) ∧
  decode 0x00000007 = .ok .decode ∧ decode 0x00000008 = .ok .clrStatus ∧ decode 0x00000009 = .ok .lockCfg ∧
  decode 0x0000000A = .error .unassignedOpcode ∧ decode 0x00000307 = .error .channelNotTaken ∧
  decode 0x00000304 = .error .noSuchChannel ∧ decode 0x00000400 = .error .reservedBits

/-- R89: encode(cmd) = (ch << 8) | op with R86's op; a word decodes to a command exactly when it is that command's
word, so encode(decode(w)) = w for every legal w, decode(encode(i)) = i for every command, and decode is injective on
legal words. -/
def Obligations.DecodeEncodeAgree : Prop :=
  (encode .nop = 0x0#32 ∧ encode .buildReq = 0x1#32 ∧ encode .parse = 0x2#32 ∧ encode .rxClear = 0x3#32 ∧
    encode .decode = 0x7#32 ∧ encode .clrStatus = 0x8#32 ∧ encode .lockCfg = 0x9#32) ∧
  (∀ c : Channel,
    encode (.cal c) = (c.toCh.zeroExtend 32 <<< 8) ||| 0x4#32 ∧
    encode (.val c) = (c.toCh.zeroExtend 32 <<< 8) ||| 0x5#32 ∧
    encode (.calval c) = (c.toCh.zeroExtend 32 <<< 8) ||| 0x6#32) ∧
  (Channel.distance.toCh = 0 ∧ Channel.yaw.toCh = 1 ∧ Channel.pitch.toCh = 2) ∧
  (∀ (w : Word) (i : Instr), decode w = .ok i ↔ w = encode i) ∧
  (∀ (w w' : Word) (i : Instr), decode w = .ok i → decode w' = .ok i → w = w')

/-- R87: a word is illegal iff (a) RSV ≠ 0, (b) OP ≥ 0x0A, (c) OP takes no channel and CH ≠ 0, or (d) OP takes a
channel and CH = 3; writing one raises IllegalCommand and changes nothing else; exactly 16 words are legal. -/
def Obligations.IllegalWordsAreRule87 : Prop :=
  (∀ w : Word,
    (∃ e, decode w = .error e) ↔
      (w.toNat / 2 ^ 10 ≠ 0 ∨
       0x0A ≤ w.toNat % 256 ∨
       ((w.toNat % 256 < 4 ∨ 6 < w.toNat % 256) ∧ w.toNat / 256 % 4 ≠ 0) ∨
       ((4 ≤ w.toNat % 256 ∧ w.toNat % 256 ≤ 6) ∧ w.toNat / 256 % 4 = 3))) ∧
  (∀ (w : Word) (e : IllegalWord) (s : State), decode w = .error e →
    executeCommand w s = .next { s with errIllegalCmd := true }) ∧
  (∃ ws : List Word, ws.length = 16 ∧ ws.Nodup ∧ ∀ w : Word, (∃ i, decode w = .ok i) ↔ w ∈ ws)

/-- R160: a host write of a legal command's word to CMD runs that command, and nothing else but the bus reply OK is
added, whatever the command does. The second clause is the model's choice (log 10): `withFetchWord` places exactly such
a write as the next step, since the block fetches nothing and a program comes from outside it. -/
def Obligations.StepRunsWrittenCommand : Prop :=
  (∀ (s t : State) (w : Word) (i : Instr) (rest : List AgentStep),
    Ready s → s.pending = .hostWrite s.params.blockBase .four w :: rest → decode w = .ok i →
    exec i { s with pending := rest } = .next t →
    step s = .next { t with replies := t.replies ++ [.write .ok] }) ∧
  (∀ (s t : State) (i : Instr),
    Ready s → exec i s = .next t →
    step (s.withFetchWord 32 (encode i).toNat) = .next { t with replies := t.replies ++ [.write .ok] })

/-- R162 and R182: a host write of an illegal word to CMD returns OK, sets err_illegal_cmd and changes no other state
of the block; R162's four example words are illegal. -/
def Obligations.StepOfIllegalWordSetsOneBit : Prop :=
  (∀ (s : State) (w : Word) (e : IllegalWord) (rest : List AgentStep),
    Ready s → s.pending = .hostWrite s.params.blockBase .four w :: rest → decode w = .error e →
    step s = .next { s with
      errIllegalCmd := true, pending := rest, replies := s.replies ++ [.write .ok] }) ∧
  (decode 0x0000000A = .error .unassignedOpcode ∧ decode 0x00000307 = .error .channelNotTaken ∧
    decode 0x00000304 = .error .noSuchChannel ∧ decode 0x00000400 = .error .reservedBits)

/-! ## Reset and configuration -/

/-- R39 with R29's defaults: after reset, for every parameters R7 allows, the configuration registers hold exactly
the integers of R29, every other register and state bit is 0, STATUS reads 0 and REQ_FRAME its constant. -/
def Obligations.ResetStateIsRule39 : Prop :=
  ∀ p : Params, p.wf = true →
    let s := State.resetWith p
    (∀ c : Channel, (s.regs c).raw = 0 ∧ (s.regs c).offset = 0 ∧ (s.regs c).calv = 0 ∧ (s.regs c).out = 0) ∧
    ((s.regs .distance).scale.toNat * 10 = p.denD ∧ (s.regs .distance).bias.toInt = 0 ∧
      (s.regs .distance).min.toInt = 0 ∧ (s.regs .distance).max.toInt * 2 = 41 * p.denD) ∧
    ((s.regs .yaw).scale.toNat * 2 = p.denY ∧ (s.regs .yaw).bias.toInt = -40 * p.denY ∧
      (s.regs .yaw).min.toInt = -30 * p.denY ∧ (s.regs .yaw).max.toInt = 30 * p.denY) ∧
    ((s.regs .pitch).scale.toNat * 2 = p.denP ∧ (s.regs .pitch).bias.toInt = -40 * p.denP ∧
      (s.regs .pitch).min.toInt = -30 * p.denP ∧ (s.regs .pitch).max.toInt = 30 * p.denP) ∧
    (∀ i : Fin 8, s.bank[i] = 0) ∧
    (s.frameOk = false ∧ (∀ k, sticky k s = false) ∧ (∀ c, s.oor.get c = false) ∧ s.sfLen = 0) ∧
    (s.rxCount = 0 ∧ s.txPending = false ∧ s.txIdx = 0 ∧ s.cfgLock = false) ∧
    readReg .status s = 0 ∧ readReg .reqFrame s = 0x53000152#32

/-- R210: the reset step is enabled in every state of a legally configured block and leaves every piece of the
block's state but rx_buf as the state right after reset has it. -/
def Obligations.ResetStepRestoresResetState : Prop :=
  ∀ (s : State) (rest : List AgentStep), s.params.wf = true → s.pending = .reset :: rest →
    ∃ t, step s = .next t ∧
      t = { State.resetWith s.params with
              rxBuf := t.rxBuf, resetCount := s.resetCount + 1, pending := rest,
              replies := s.replies, sent := s.sent } ∧
      readReg .status t = 0 ∧ Ready t

/-- R211: before the first reset a host access is refused. -/
def Obligations.HostAccessBeforeResetRefused : Prop :=
  ∀ (s : State) (rest : List AgentStep) (addr : Nat) (n : Size) (v : Word),
    s.params.wf = true → s.hasReset = false →
    (s.pending = .hostRead addr n :: rest ∨ s.pending = .hostWrite addr n v :: rest) →
    step s = .refused .beforeFirstReset

/-- R7's constraints and R198's one host: a step is refused as a bad configuration exactly when one is broken. -/
def Obligations.BrokenConfigurationRefused : Prop :=
  ∀ s : State,
    step s = .refused .badConfiguration ↔
      ¬ ((0 < s.params.denD ∧ 10 ∣ s.params.denD ∧ s.params.denD / 10 ≤ 65535) ∧
         (0 < s.params.denY ∧ 2 ∣ s.params.denY ∧ s.params.denY ≤ 818) ∧
         (0 < s.params.denP ∧ 2 ∣ s.params.denP ∧ s.params.denP ≤ 818) ∧ s.params.hosts = 1)

/-- R92, R91, D5: `SETOFF ch, q` with q in [−32768, 32767] is one step, which stores exactly the code q in OFFSET(ch)
and changes no other register; a program that asks for a code outside that range is refused. `SETRAW ch, b` stores b in
RAW(ch). -/
def Obligations.PseudoLinesStoreTheirValue : Prop :=
  (∀ (s : State) (c : Channel) (q : Int), Ready s → -32768 ≤ q → q ≤ 32767 →
    ∃ e t, programSteps s.params [.setOff c q] = some [e] ∧ step { s with pending := [e] } = .next t ∧
      (t.regs c).offset.toInt = q ∧
      t = { s with
              chan := s.chan.set c { s.chan.get c with offset := (t.regs c).offset }
              pending := [], replies := s.replies ++ [.write .ok] }) ∧
  (∀ (p : Params) (c : Channel) (q : Int) (before after : List Line), q < -32768 ∨ 32767 < q →
    programSteps p (before ++ .setOff c q :: after) = none) ∧
  (∀ (s : State) (c : Channel) (b : Byte), Ready s →
    ∃ e, programSteps s.params [.setRaw c b] = some [e] ∧
      step { s with pending := [e] } = .next { s with
              chan := s.chan.set c { s.chan.get c with raw := b }
              pending := [], replies := s.replies ++ [.write .ok] })

/-! ## The register window -/

/-- R55's offsets: channel c's register at +k lies at 0x40 + 0x20·c + k in the order RAW, SCALE, BIAS, OFFSET, MIN,
MAX, CALV, OUT; BANK(i) at 0xC0 + 4·i; an offset names a register exactly when it is that register's. -/
def Obligations.RegisterMapRule55 : Prop :=
  (regOffset .cmd = 0x00#8 ∧ regOffset .status = 0x04#8 ∧ regOffset .reqFrame = 0x08#8) ∧
  (∀ c : Channel,
    let base := 0x40 + 0x20 * c.toCh.toNat
    (regOffset (.chan c .raw)).toNat = base ∧ (regOffset (.chan c .scale)).toNat = base + 0x04 ∧
    (regOffset (.chan c .bias)).toNat = base + 0x08 ∧ (regOffset (.chan c .offset)).toNat = base + 0x0C ∧
    (regOffset (.chan c .min)).toNat = base + 0x10 ∧ (regOffset (.chan c .max)).toNat = base + 0x14 ∧
    (regOffset (.chan c .calv)).toNat = base + 0x18 ∧ (regOffset (.chan c .out)).toNat = base + 0x1C) ∧
  (∀ i : Fin 8, (regOffset (.bank i)).toNat = 0xC0 + 4 * i.val) ∧
  (∀ (a : BitVec 8) (r : Reg), regAt a = some r ↔ regOffset r = a)

/-- R54 with R55's access column and R56's reserved offsets, by numbers: an access is a BusError iff its size is not
4, its offset is misaligned or not in the table, or its direction is not allowed there; it is CfgLocked iff it passes
those and writes SCALE, BIAS, MIN or MAX while cfg_lock = 1; there is no other failure. -/
def Obligations.AccessCheckRule54 : Prop :=
  ∀ (dir : Dir) (a : BitVec 8) (n : Size) (s : State),
    let chanSpace := 0x40 ≤ a.toNat ∧ a.toNat < 0xA0
    let inTable := a.toNat = 0 ∨ a.toNat = 4 ∨ a.toNat = 8 ∨ chanSpace ∨ (0xC0 ≤ a.toNat ∧ a.toNat < 0xE0)
    let writable := a.toNat = 0 ∨ (chanSpace ∧ a.toNat % 32 ≠ 0x1C)
    let locks := chanSpace ∧
      (a.toNat % 32 = 0x04 ∨ a.toNat % 32 = 0x08 ∨ a.toNat % 32 = 0x10 ∨ a.toNat % 32 = 0x14)
    (accessCheck dir a n s = .error (.busError a) ↔
      n ≠ .four ∨ a.toNat % 4 ≠ 0 ∨ ¬ inTable ∨ (dir = .read ∧ a.toNat = 0) ∨ (dir = .write ∧ ¬ writable)) ∧
    (accessCheck dir a n s = .error (.cfgLocked a) ↔
      n = .four ∧ dir = .write ∧ locks ∧ s.cfgLock = true) ∧
    (∀ e, accessCheck dir a n s = .error e → e = .busError a ∨ e = .cfgLocked a)

/-- R57, R183, R184: a host access that fails its check returns ERR (a read with data 0), sets err_bus for a
BusError and err_cfg_locked for CfgLocked, and leaves all else of the block unchanged. -/
def Obligations.FailedAccessSetsOneBit : Prop :=
  (∀ (s : State) (a : BitVec 8) (n : Size) (e : Error), accessCheck .read a n s = .error e →
    memRead a n s = { s with errBus := true, replies := s.replies ++ [.read 0 .err] }) ∧
  (∀ (s : State) (a : BitVec 8) (n : Size) (v : Word), accessCheck .write a n s = .error (.busError a) →
    memWrite a n v s = .next { s with errBus := true, replies := s.replies ++ [.write .err] }) ∧
  (∀ (s : State) (a : BitVec 8) (n : Size) (v : Word), accessCheck .write a n s = .error (.cfgLocked a) →
    memWrite a n v s = .next { s with errCfgLocked := true, replies := s.replies ++ [.write .err] })

/-- R52 with R55's read value column: a 32-bit read at a readable register's offset returns, with OK, the
zero-extended RAW, SCALE, BANK, the sign-extended BIAS, OFFSET, the stored MIN, MAX, CALV, OUT, or the STATUS or
REQ_FRAME word, and changes nothing of the block. -/
def Obligations.ReadReturnsRegisterValue : Prop :=
  (∀ (s : State) (r : Reg), r ≠ .cmd →
    memRead (regOffset r) .four s = { s with replies := s.replies ++ [.read (readReg r s) .ok] }) ∧
  (∀ (s : State) (c : Channel),
    (readReg (.chan c .raw) s).toNat = (s.regs c).raw.toNat ∧
    (readReg (.chan c .scale) s).toNat = (s.regs c).scale.toNat ∧
    (readReg (.chan c .bias) s).toInt = (s.regs c).bias.toInt ∧
    (readReg (.chan c .offset) s).toInt = (s.regs c).offset.toInt ∧
    readReg (.chan c .min) s = (s.regs c).min ∧ readReg (.chan c .max) s = (s.regs c).max ∧
    readReg (.chan c .calv) s = (s.regs c).calv ∧ readReg (.chan c .out) s = (s.regs c).out) ∧
  (∀ (s : State) (i : Fin 8), (readReg (.bank i) s).toNat = s.bank[i].toNat)

/-- R59, R22, R62: a 32-bit write to RAW, SCALE, BIAS, OFFSET, MIN, MAX or CALV, unless the lock refuses it, returns
OK and a read then gives v[7:0] zero-extended, v[15:0] zero- or sign-extended, or v; every other register of the
window reads as before, and nothing else of the block changes. -/
def Obligations.WriteStoresOneRegister : Prop :=
  ∀ (s : State) (c : Channel) (k : ChanReg) (v : Word),
    k ≠ .out → (lockable (.chan c k) = true → s.cfgLock = false) →
    ∃ t, memWrite (regOffset (.chan c k)) .four v s = .next t ∧
      readReg (.chan c k) t =
        (match k with
         | .raw => (v.extractLsb' 0 8).zeroExtend 32
         | .scale => (v.extractLsb' 0 16).zeroExtend 32
         | .bias => (v.extractLsb' 0 16).signExtend 32
         | .offset => (v.extractLsb' 0 16).signExtend 32
         | _ => v) ∧
      (∀ r, r ≠ .chan c k → readReg r t = readReg r s) ∧
      t = { s with chan := t.chan, replies := s.replies ++ [.write .ok] }

/-- R58 and R184: while cfg_lock = 1 a write to SCALE(c), BIAS(c), MIN(c) or MAX(c) returns ERR, sets err_cfg_locked
and stores nothing; writes to OFFSET(c), RAW(c) and CALV(c) are accepted in every state. -/
def Obligations.LockRefusesConfigurationWrites : Prop :=
  (∀ (s : State) (c : Channel) (k : ChanReg) (v : Word), s.cfgLock = true →
    k = .scale ∨ k = .bias ∨ k = .min ∨ k = .max →
    memWrite (regOffset (.chan c k)) .four v s =
      .next { s with errCfgLocked := true, replies := s.replies ++ [.write .err] }) ∧
  (∀ (s : State) (c : Channel) (k : ChanReg) (v : Word), k = .offset ∨ k = .raw ∨ k = .calv →
    ∃ t, memWrite (regOffset (.chan c k)) .four v s = .next t ∧ t.replies = s.replies ++ [.write .ok])

/-- R33: REQ_FRAME reads 0x53000152 in every state, byte k of the frame at bits[8k+7:8k]; a write to it is a bus
error. -/
def Obligations.RequestFrameIsConstant : Prop :=
  (∀ s : State, readReg .reqFrame s = 0x53000152#32) ∧
  (∀ (s : State) (k : Nat) (hk : k < 4),
    (readReg .reqFrame s).extractLsb' (8 * k) 8 = [0x52#8, 0x01#8, 0x00#8, 0x53#8][k]) ∧
  (∀ (s : State) (n : Size) (v : Word),
    memWrite (regOffset .reqFrame) n v s =
      .next { s with errBus := true, replies := s.replies ++ [.write .err] })

/-- R32's layout of the STATUS word, every bit of it. -/
def Obligations.StatusWordLayout : Prop :=
  ∀ s : State,
    let w := readReg .status s
    w.getLsbD 0 = s.frameOk ∧ w.getLsbD 1 = s.errShortFrame ∧ w.getLsbD 2 = s.errIllegalCmd ∧
    w.getLsbD 3 = s.errBus ∧ w.getLsbD 4 = s.errCfgLocked ∧ w.getLsbD 5 = s.errTxOverrun ∧
    w.getLsbD 6 = s.txPending ∧ w.getLsbD 7 = s.cfgLock ∧
    w.getLsbD 8 = s.oor.get .distance ∧ w.getLsbD 9 = s.oor.get .yaw ∧ w.getLsbD 10 = s.oor.get .pitch ∧
    w.extractLsb' 11 5 = 0 ∧ w.extractLsb' 16 8 = s.sfLen ∧ w.extractLsb' 24 8 = s.rxCount

/-- A host access to an address outside the window is none of the block's and is refused. This is the model's choice
(log 9): the spec fixes nothing of the host's address space but the window's start (R63). -/
def Obligations.AccessOutsideWindowRefused : Prop :=
  ∀ (s : State) (rest : List AgentStep) (addr : Nat) (n : Size) (v : Word),
    Ready s → addr < s.params.blockBase ∨ s.params.blockBase + 256 ≤ addr →
    (s.pending = .hostRead addr n :: rest ∨ s.pending = .hostWrite addr n v :: rest) →
    step s = .refused .outsideTheWindow

/-- R51, R52, R53, R196: a host access to the address BLOCK_BASE + a is the block's read or write at offset a. -/
def Obligations.StepOfHostAccess : Prop :=
  (∀ (s : State) (rest : List AgentStep) (a : BitVec 8) (n : Size),
    Ready s → s.pending = .hostRead (s.params.blockBase + a.toNat) n :: rest →
    step s = .next (memRead a n { s with pending := rest })) ∧
  (∀ (s : State) (rest : List AgentStep) (a : BitVec 8) (n : Size) (v : Word),
    Ready s → s.pending = .hostWrite (s.params.blockBase + a.toNat) n v :: rest →
    step s = memWrite a n v { s with pending := rest })

/-! ## The frame codec -/

/-- R100: rx_push(b) is enabled in every state; it stores b at rx_buf[rx_count] if rx_count < 14 and nothing
otherwise, counts up to 255 and stays there, and writes no other state. -/
def Obligations.ReceivePushRule100 : Prop :=
  ∀ (s : State) (b : Byte) (rest : List AgentStep), Ready s → s.pending = .rxPush b :: rest →
    ∃ t, step s = .next t ∧
      t.rxCount.toNat = Nat.min 255 (s.rxCount.toNat + 1) ∧
      (∀ (k : Nat) (h : k < 14), t.rxBuf[k] = if k = s.rxCount.toNat then b else s.rxBuf[k]) ∧
      t = { s with rxBuf := t.rxBuf, rxCount := t.rxCount, pending := rest }

/-- R104 and R105: tx_take is enabled iff tx_pending = 1; it takes REQ[tx_idx], moves tx_idx on, ends the request after
byte 3, and writes no other state. That a schedule asking for it while tx_pending = 0 ends in a fault is the model's
reading of "has no step" (log 4). -/
def Obligations.TransmitTakeRule104 : Prop :=
  (∀ (s : State) (rest : List AgentStep), Ready s → s.pending = .txTake :: rest → s.txPending = true →
    ∃ t, step s = .next t ∧
      t.sent = s.sent ++ [[0x52#8, 0x01#8, 0x00#8, 0x53#8][s.txIdx.toNat]'(by exact s.txIdx.isLt)] ∧
      (s.txIdx = 3 → t.txPending = false ∧ t.txIdx = 0) ∧
      (s.txIdx ≠ 3 → t.txPending = true ∧ t.txIdx.toNat = s.txIdx.toNat + 1) ∧
      t = { s with txPending := t.txPending, txIdx := t.txIdx, sent := t.sent, pending := rest }) ∧
  (∀ (s : State) (rest : List AgentStep), Ready s → s.pending = .txTake :: rest → s.txPending = false →
    step s = .fault .transmitterHasNoStep)

/-- R106: BUILD_REQ arms the sequencer at byte 0 while no request is pending; while one is, it sets err_tx_overrun and
the request goes on unchanged. Nothing else changes. -/
def Obligations.BuildReqRule106 : Prop :=
  decode 0x00000001 = .ok .buildReq ∧
  (∀ s : State, s.txPending = false → exec .buildReq s = .next { s with txPending := true, txIdx := 0 }) ∧
  (∀ s : State, s.txPending = true → exec .buildReq s = .next { s with errTxOverrun := true })

/-- R106's example and R70: after BUILD_REQ the four bytes 52 01 00 53 leave in that order, whatever bytes, none or
any number, the receiver delivers before each of them, and TX_BUSY is 0 after the fourth. -/
def Obligations.RequestLeavesInFrameOrder : Prop :=
  ∀ (s : State) (rest : List AgentStep) (bs0 bs1 bs2 bs3 : List Byte), Ready s → s.txPending = false →
    let schedule : List AgentStep :=
      [.hostWrite s.params.blockBase .four 0x00000001#32] ++ bs0.map .rxPush ++ [.txTake] ++ bs1.map .rxPush
        ++ [.txTake] ++ bs2.map .rxPush ++ [.txTake] ++ bs3.map .rxPush ++ [.txTake]
    let steps := 5 + bs0.length + bs1.length + bs2.length + bs3.length
    ∃ t, run steps { s with pending := schedule ++ rest } = .next t ∧
      t.sent = s.sent ++ [0x52#8, 0x01#8, 0x00#8, 0x53#8] ∧ t.txPending = false ∧ t.txIdx = 0 ∧
      t.pending = rest

/-- R108, R109, R110, R180: PARSE of a 14-byte frame loads RAW(0..2) from bytes 2, 3, 4 and BANK(i) from byte 5 + i,
sets FRAME_OK and consumes the frame; of any other length n it consumes the frame, clears FRAME_OK, records
ShortFrame(n) and writes no field. Nothing else changes. -/
def Obligations.ParseRule108 : Prop :=
  decode 0x00000002 = .ok .parse ∧
  (∀ s : State, s.rxCount = 14 →
    ∃ t, exec .parse s = .next t ∧
      (t.regs .distance).raw = s.rxBuf[2] ∧ (t.regs .yaw).raw = s.rxBuf[3] ∧ (t.regs .pitch).raw = s.rxBuf[4] ∧
      (∀ (i : Nat) (h : i < 8), t.bank[i] = s.rxBuf[5 + i]) ∧
      (∀ c : Channel, t.regs c = { s.regs c with raw := (t.regs c).raw }) ∧
      t = { s with chan := t.chan, bank := t.bank, rxCount := 0, frameOk := true }) ∧
  (∀ s : State, s.rxCount ≠ 14 →
    exec .parse s = .next { s with
      rxCount := 0, frameOk := false, sfLen := s.rxCount, errShortFrame := true })

/-- R83, R111: bytes 0, 1 and 13 of a frame are not used. Two states that differ only in those bytes of rx_buf parse
alike, and DECODE alike: the results differ only in rx_buf. -/
def Obligations.HeaderAndTerminatorIgnored : Prop :=
  ∀ (s s' : State) (i : Instr), i = .parse ∨ i = .decode →
    s' = { s with rxBuf := s'.rxBuf } →
    (∀ (k : Nat) (h : k < 14), k ≠ 0 → k ≠ 1 → k ≠ 13 → s'.rxBuf[k] = s.rxBuf[k]) →
    ∃ t t', exec i s = .next t ∧ exec i s' = .next t' ∧ t' = { t with rxBuf := s'.rxBuf }

/-- R112: RX_CLEAR sets rx_count to 0 and changes nothing else. -/
def Obligations.RxClearRule112 : Prop :=
  decode 0x00000003 = .ok .rxClear ∧ ∀ s : State, exec .rxClear s = .next { s with rxCount := 0 }

/-- R101: that rx_count is the number of bytes delivered since the last PARSE, DECODE, RX_CLEAR or reset, capped at
255, and rx_buf[k] the k-th of them for every k below 14 and below that number, is kept by every step of every agent, and
holds after reset with no byte delivered. -/
def Obligations.FrameBufferHoldsDeliveredBytes : Prop :=
  (∀ (bs : List Byte) (s t : State), HoldsReceived bs s → step s = .next t →
    HoldsReceived (receivedAfter bs s) t) ∧
  (∀ p : Params, HoldsReceived [] (State.resetWith p))

/-- R34: the bytes of rx_buf that were not received since the last clear cannot be observed. From two states that
differ only in them, the next step ends alike, and in states that again differ only so. -/
def Obligations.StaleReceiveBytesUnobservable : Prop :=
  ∀ s s' : State, SameButUnreceived s s' →
    (∀ t, step s = .next t → ∃ t', step s' = .next t' ∧ SameButUnreceived t t') ∧
    (∀ f, step s = .fault f → step s' = .fault f) ∧
    (∀ r, step s = .refused r → step s' = .refused r)

/-! ## The calibrator -/

/-- R131: CAL(c) writes to CALV(c) the exact integer RAW·SCALE + BIAS + OFFSET, whatever the registers hold, and
changes nothing else; it lies in [−65536, 16776959]; CH = 3 is illegal. -/
def Obligations.CalRule131 : Prop :=
  (decode 0x004 = .ok (.cal .distance) ∧ decode 0x104 = .ok (.cal .yaw) ∧ decode 0x204 = .ok (.cal .pitch) ∧
    ∃ e, decode 0x304 = .error e) ∧
  ∀ (c : Channel) (s : State),
    ∃ q : Word,
      q.toInt = (s.regs c).raw.toNat * (s.regs c).scale.toNat + (s.regs c).bias.toInt + (s.regs c).offset.toInt ∧
      -65536 ≤ q.toInt ∧ q.toInt ≤ 16776959 ∧
      exec (.cal c) s = .next { s with chan := s.chan.set c { s.chan.get c with calv := q } }

/-- R10, R130: right after reset with any parameters R7 allows, for every raw byte and every offset, the physical value
calib/DEN is raw/10 + OFFSET/DEN_D for distance, and raw/2 − 40 + OFFSET/DEN for yaw and pitch, exactly. -/
def Obligations.DefaultTransferFunctions : Prop :=
  ∀ (p : Params) (raw : Byte) (off : Half), p.wf = true →
    let q := fun c => calib { (State.resetWith p).regs c with raw := raw, offset := off }
    (q .distance : ℚ) / p.denD = (raw.toNat : ℚ) / 10 + (off.toInt : ℚ) / p.denD ∧
    (q .yaw : ℚ) / p.denY = (raw.toNat : ℚ) / 2 - 40 + (off.toInt : ℚ) / p.denY ∧
    (q .pitch : ℚ) / p.denP = (raw.toNat : ℚ) / 2 - 40 + (off.toInt : ℚ) / p.denP

/-- R132: for fixed configuration registers calib is non-decreasing in the raw byte, and at the default configuration
strictly increasing. -/
def Obligations.CalibrationMonotone : Prop :=
  (∀ (r : ChanRegs) (a b : Byte), a.toNat ≤ b.toNat → calib { r with raw := a } ≤ calib { r with raw := b }) ∧
  (∀ (p : Params) (c : Channel) (a b : Byte), p.wf = true → a.toNat < b.toNat →
    calib { (State.resetWith p).regs c with raw := a } < calib { (State.resetWith p).regs c with raw := b })

/-- R136, R134: VAL(c) copies CALV(c) to OUT(c) and clears oor[c] if MIN(c) ≤ CALV(c) ≤ MAX(c) as signed integers;
else it writes the sentinel 0 and sets oor[c]. Nothing else changes. -/
def Obligations.ValRule136 : Prop :=
  (decode 0x005 = .ok (.val .distance) ∧ decode 0x105 = .ok (.val .yaw) ∧ decode 0x205 = .ok (.val .pitch)) ∧
  ∀ (c : Channel) (s : State),
    let r := s.chan.get c
    ((r.min.toInt ≤ r.calv.toInt ∧ r.calv.toInt ≤ r.max.toInt) →
      exec (.val c) s = .next { s with
        chan := s.chan.set c { r with out := r.calv }, oor := s.oor.set c false }) ∧
    (¬ (r.min.toInt ≤ r.calv.toInt ∧ r.calv.toInt ≤ r.max.toInt) →
      exec (.val c) s = .next { s with
        chan := s.chan.set c { r with out := 0 }, oor := s.oor.set c true })

/-- R137: (a) with MIN > MAX every value gives 0 and OOR; (b) with MIN = MAX = m only m passes; (c) a 0 in range is told
from the sentinel by OOR; (d) out of range the output is 0, whether or not 0 is in range; (e) CALV is read as it
stands, and comes out unchanged when it passes. -/
def Obligations.ValCornersRule137 : Prop :=
  ∀ (c : Channel) (s : State),
    ∃ t, exec (.val c) s = .next t ∧
      ((s.regs c).max.toInt < (s.regs c).min.toInt → (t.regs c).out = 0 ∧ t.oor.get c = true) ∧
      ((s.regs c).min = (s.regs c).max →
        (t.oor.get c = false ↔ (s.regs c).calv = (s.regs c).min)) ∧
      ((s.regs c).calv = 0 → (s.regs c).min.toInt ≤ 0 → 0 ≤ (s.regs c).max.toInt →
        (t.regs c).out = 0 ∧ t.oor.get c = false) ∧
      ((s.regs c).calv.toInt < (s.regs c).min.toInt ∨ (s.regs c).max.toInt < (s.regs c).calv.toInt →
        (t.regs c).out = 0 ∧ t.oor.get c = true) ∧
      (t.oor.get c = false → (t.regs c).out = (s.regs c).calv)

/-- R140: CALVAL(c) writes CALV(c) as CAL does and then OUT(c) and oor[c] from that new value as VAL does; CALV(c)
keeps the unvalidated code. Nothing else changes. -/
def Obligations.CalvalRule140 : Prop :=
  (decode 0x006 = .ok (.calval .distance) ∧ decode 0x106 = .ok (.calval .yaw) ∧
    decode 0x206 = .ok (.calval .pitch)) ∧
  ∀ (c : Channel) (s : State),
    let r := s.chan.get c
    ∃ q : Word,
      q.toInt = r.raw.toNat * r.scale.toNat + r.bias.toInt + r.offset.toInt ∧
      ((r.min.toInt ≤ q.toInt ∧ q.toInt ≤ r.max.toInt) →
        exec (.calval c) s = .next { s with
          chan := s.chan.set c { r with calv := q, out := q }, oor := s.oor.set c false }) ∧
      (¬ (r.min.toInt ≤ q.toInt ∧ q.toInt ≤ r.max.toInt) →
        exec (.calval c) s = .next { s with
          chan := s.chan.set c { r with calv := q, out := 0 }, oor := s.oor.set c true })

/-- R143: at the default parameters and configuration with OFFSET(c) = o, CALVAL gives CALV(0) = raw + o and CALV(1) =
CALV(2) = raw − 80 + o, and OUT(c) that value if it lies in [0, 205], respectively [−60, 60], else 0. -/
def Obligations.CalvalAtDefaultsRule143 : Prop :=
  ∀ (c : Channel) (s : State) (o : Half),
    s.regs c = { State.reset.regs c with
      raw := (s.regs c).raw, offset := o, calv := (s.regs c).calv, out := (s.regs c).out } →
    ∃ t, exec (.calval c) s = .next t ∧
      (t.regs c).calv.toInt =
        (match c with
         | .distance => (s.regs c).raw.toNat + o.toInt
         | _ => (s.regs c).raw.toNat - 80 + o.toInt) ∧
      (t.regs c).out.toInt =
        (match c with
         | .distance =>
           if 0 ≤ (s.regs c).raw.toNat + o.toInt ∧ (s.regs c).raw.toNat + o.toInt ≤ 205 then
             (s.regs c).raw.toNat + o.toInt else 0
         | _ =>
           if -60 ≤ (s.regs c).raw.toNat - 80 + o.toInt ∧ (s.regs c).raw.toNat - 80 + o.toInt ≤ 60 then
             (s.regs c).raw.toNat - 80 + o.toInt else 0)

/-- R139: CAL, VAL and CALVAL on channel c complete; every register of the window but CALV(c), OUT(c) and STATUS reads
as before (CAL leaves OUT(c), VAL leaves CALV(c)); of STATUS only bit 8 + c can change (CAL: none); and no hidden state
changes. -/
def Obligations.ChannelCommandFrame : Prop :=
  ∀ (c : Channel) (i : Instr) (s : State), i = .cal c ∨ i = .val c ∨ i = .calval c →
    ∃ t, exec i s = .next t ∧
      (∀ r, r ≠ .chan c .calv → r ≠ .chan c .out → r ≠ .status → readReg r t = readReg r s) ∧
      (i = .cal c → readReg (.chan c .out) t = readReg (.chan c .out) s) ∧
      (i = .val c → readReg (.chan c .calv) t = readReg (.chan c .calv) s) ∧
      (∀ k : Nat, (k ≠ 8 + c.toCh.toNat ∨ i = .cal c) →
        (readReg .status t).getLsbD k = (readReg .status s).getLsbD k) ∧
      t = { s with chan := t.chan, oor := t.oor }

/-! ## Control -/

/-- R161: NOP changes nothing; 0x00000000 is its word and the only legal word with OP = 0. -/
def Obligations.NopRule161 : Prop :=
  decode 0x00000000 = .ok .nop ∧
  (∀ (w : Word) (i : Instr), w.toNat % 256 = 0 → decode w = .ok i → w = 0) ∧
  (∀ s : State, exec .nop s = .next s)

/-- R163: DECODE of a 14-byte frame loads RAW and BANK, sets FRAME_OK, and on every channel writes CALV exactly and
OUT and oor by the range check, with the configuration as it stands; of any other length it does what PARSE does and
leaves RAW, BANK, CALV, OUT and OOR. Nothing else changes. -/
def Obligations.DecodeRule163 : Prop :=
  decode 0x00000007 = .ok .decode ∧
  (∀ s : State, s.rxCount = 14 →
    ∃ t, exec .decode s = .next t ∧
      (t.regs .distance).raw = s.rxBuf[2] ∧ (t.regs .yaw).raw = s.rxBuf[3] ∧ (t.regs .pitch).raw = s.rxBuf[4] ∧
      (∀ (i : Nat) (h : i < 8), t.bank[i] = s.rxBuf[5 + i]) ∧
      (∀ c : Channel,
        let r := t.regs c
        r = { s.regs c with raw := r.raw, calv := r.calv, out := r.out } ∧
        r.calv.toInt = r.raw.toNat * r.scale.toNat + r.bias.toInt + r.offset.toInt ∧
        ((r.min.toInt ≤ r.calv.toInt ∧ r.calv.toInt ≤ r.max.toInt) →
          r.out = r.calv ∧ t.oor.get c = false) ∧
        (¬ (r.min.toInt ≤ r.calv.toInt ∧ r.calv.toInt ≤ r.max.toInt) →
          r.out = 0 ∧ t.oor.get c = true)) ∧
      t = { s with chan := t.chan, bank := t.bank, oor := t.oor, rxCount := 0, frameOk := true }) ∧
  (∀ s : State, s.rxCount ≠ 14 →
    exec .decode s = .next { s with
      rxCount := 0, frameOk := false, sfLen := s.rxCount, errShortFrame := true })

/-- R164 (a) and (b): when the frame has 14 bytes, DECODE ends in the state that PARSE and then CALVAL on the three
channels, one command after another in any order, end in. -/
def Obligations.DecodeIsParseThenCalvals : Prop :=
  ∀ (s s0 s1 s2 s3 : State) (c1 c2 c3 : Channel), s.rxCount = 14 → [c1, c2, c3].Nodup →
    exec .parse s = .next s0 → exec (.calval c1) s0 = .next s1 → exec (.calval c2) s1 = .next s2 →
    exec (.calval c3) s2 = .next s3 → exec .decode s = .next s3

/-- R165: CLR_STATUS clears the five sticky bits and SF_LEN and changes nothing else. -/
def Obligations.ClrStatusRule165 : Prop :=
  decode 0x00000008 = .ok .clrStatus ∧
  ∀ s : State,
    ∃ t, exec .clrStatus s = .next t ∧ (∀ k, sticky k t = false) ∧
      (readReg .status t).extractLsb' 1 5 = 0 ∧ (readReg .status t).extractLsb' 16 8 = 0 ∧
      t = { s with
              errShortFrame := false, errIllegalCmd := false, errBus := false, errCfgLocked := false
              errTxOverrun := false, sfLen := 0 }

/-- R166: LOCK_CFG sets cfg_lock and changes nothing else, also when it is set already. -/
def Obligations.LockCfgSetsLock : Prop :=
  decode 0x00000009 = .ok .lockCfg ∧
  (∀ s : State, exec .lockCfg s = .next { s with cfgLock := true }) ∧
  (∀ s : State, s.cfgLock = true → exec .lockCfg s = .next s)

/-! ## Whole-machine rules -/

/-- R22's "written by commands" column: no command writes SCALE, BIAS, OFFSET, MIN or MAX of any channel; only PARSE
and DECODE write RAW and BANK; only CAL(c), CALVAL(c) and DECODE write CALV(c); only VAL(c), CALVAL(c) and DECODE write
OUT(c). -/
def Obligations.CommandsWriteOnlyTheirRegisters : Prop :=
  ∀ (i : Instr) (s t : State), exec i s = .next t →
    (∀ c : Channel,
      (t.regs c).scale = (s.regs c).scale ∧ (t.regs c).bias = (s.regs c).bias ∧
      (t.regs c).offset = (s.regs c).offset ∧ (t.regs c).min = (s.regs c).min ∧ (t.regs c).max = (s.regs c).max ∧
      (i ≠ .parse → i ≠ .decode → (t.regs c).raw = (s.regs c).raw) ∧
      (i ≠ .cal c → i ≠ .calval c → i ≠ .decode → (t.regs c).calv = (s.regs c).calv) ∧
      (i ≠ .val c → i ≠ .calval c → i ≠ .decode → (t.regs c).out = (s.regs c).out)) ∧
    (i ≠ .parse → i ≠ .decode → t.bank = s.bank)

/-- R32's "set by" and "cleared by" columns, over every step of every agent but reset. FRAME_OK becomes whether the
frame has 14 bytes at PARSE and DECODE, and changes nowhere else. Each ERR bit is set after a step exactly if it was set
before or the step is the one listed for it, and CLR_STATUS clears it. TX_BUSY is 1 after BUILD_REQ, rises nowhere else,
and falls only at the tx_take of byte 3; CFG_LOCK is set by LOCK_CFG, by nothing else, and does not fall; OOR[c] changes only at VAL(c), CALVAL(c) or the DECODE of a
14-byte frame; SF_LEN becomes the frame's length at PARSE and DECODE of a short frame, 0 at CLR_STATUS, and changes
nowhere else; RX_COUNT becomes 0 at PARSE, DECODE and RX_CLEAR, and otherwise changes only at rx_push. -/
def Obligations.StatusChangesOnlyAsListed : Prop :=
  ∀ s t : State, step s = .next t → nextIsReset s = false →
    (nextCommand s ≠ some .parse → nextCommand s ≠ some .decode → t.frameOk = s.frameOk) ∧
    (nextCommand s = some .parse ∨ nextCommand s = some .decode → t.frameOk = decide (s.rxCount = 14)) ∧
    (nextCommand s ≠ some .clrStatus →
      (t.errShortFrame = true ↔ s.errShortFrame = true ∨ nextIsShortFrame s = true) ∧
      (t.errIllegalCmd = true ↔ s.errIllegalCmd = true ∨ nextIsIllegal s = true) ∧
      (t.errBus = true ↔ s.errBus = true ∨ ∃ a, nextAccessError s = some (.busError a)) ∧
      (t.errCfgLocked = true ↔ s.errCfgLocked = true ∨ ∃ a, nextAccessError s = some (.cfgLocked a)) ∧
      (t.errTxOverrun = true ↔
        s.errTxOverrun = true ∨ (nextCommand s = some .buildReq ∧ s.txPending = true))) ∧
    (nextCommand s = some .clrStatus → (∀ k, sticky k t = false) ∧ t.sfLen = 0) ∧
    (nextCommand s ≠ some .buildReq → t.txPending = true → s.txPending = true) ∧
    (nextCommand s = some .buildReq → t.txPending = true) ∧
    (s.txPending = true → t.txPending = false → s.pending.head? = some .txTake ∧ s.txIdx = 3) ∧
    (nextCommand s ≠ some .lockCfg → t.cfgLock = s.cfgLock) ∧
    (nextCommand s = some .lockCfg → t.cfgLock = true) ∧
    (s.cfgLock = true → t.cfgLock = true) ∧
    (∀ c : Channel, nextWritesOut c s = false → t.oor.get c = s.oor.get c) ∧
    (nextIsShortFrame s = true → t.sfLen = s.rxCount) ∧
    (nextIsShortFrame s = false → nextCommand s ≠ some .clrStatus → t.sfLen = s.sfLen) ∧
    (nextCommand s ≠ some .parse → nextCommand s ≠ some .decode → nextCommand s ≠ some .rxClear →
      t.rxCount = s.rxCount ∨ ∃ b, s.pending.head? = some (.rxPush b)) ∧
    (nextCommand s = some .parse ∨ nextCommand s = some .decode ∨ nextCommand s = some .rxClear →
      t.rxCount = 0)

/-- R189: sticky error bits accumulate. No step but CLR_STATUS and reset clears any of the five. -/
def Obligations.StickyErrorsAccumulate : Prop :=
  ∀ s t : State, step s = .next t → nextIsReset s = false → nextCommand s ≠ some .clrStatus →
    ∀ k : Fin 5, sticky k s = true → sticky k t = true

/-- R188: one step raises at most one error, and receiver, transmitter and reset steps raise none. -/
def Obligations.OneStepRaisesAtMostOneError : Prop :=
  ∀ s t : State, step s = .next t →
    (∀ j k : Fin 5, sticky j s = false → sticky j t = true → sticky k s = false → sticky k t = true → j = k) ∧
    (∀ (k : Fin 5) (b : Byte) (rest : List AgentStep),
      (s.pending = .rxPush b :: rest ∨ s.pending = .txTake :: rest ∨ s.pending = .reset :: rest) →
      sticky k s = false → sticky k t = false)

/-- R166, R30, R58: once locked, the configuration is immutable except for the offsets: no step but reset changes
cfg_lock or any SCALE, BIAS, MIN or MAX. -/
def Obligations.LockedConfigurationIsImmutable : Prop :=
  ∀ s t : State, step s = .next t → s.cfgLock = true → nextIsReset s = false →
    t.cfgLock = true ∧
    ∀ c : Channel,
      (t.regs c).scale = (s.regs c).scale ∧ (t.regs c).bias = (s.regs c).bias ∧
      (t.regs c).min = (s.regs c).min ∧ (t.regs c).max = (s.regs c).max

/-- R41: that OUT(c) is 0 or lies within the bounds b that were in force when it was last written is kept by every
step of every agent, with b replaced by the new state's MIN(c) and MAX(c) if the step writes OUT(c), and otherwise kept;
and it holds after reset, for every b. -/
def Obligations.OutIsSentinelOrWasInRange : Prop :=
  (∀ (c : Channel) (b : Word × Word) (s t : State), OutWithin c b s → step s = .next t →
    OutWithin c (boundsAfter c b s t) t) ∧
  (∀ (p : Params) (c : Channel) (b : Word × Word), OutWithin c b (State.resetWith p))

/-- Every step keeps the invariant: the configuration legal, the block reset, an idle sequencer at byte 0 (R104),
SF_LEN never 14 (R108), and 0 while no ShortFrame is recorded (R165, R180). It is the model's own collection of what
those rules imply. -/
def Obligations.StepKeepsInv : Prop :=
  ∀ s t : State, s.Inv → step s = .next t → t.Inv

/-- The state after reset meets the invariant, for every parameters that R7 allows. -/
def Obligations.ResetMeetsInv : Prop :=
  State.reset.Inv ∧ ∀ p : Params, p.wf = true → (State.resetWith p).Inv

/-! ## The two history rules, over whole runs -/

/-- R101 over runs: after any number of steps from reset, under any schedule, the frame buffer holds the bytes delivered
since the last PARSE, DECODE, RX_CLEAR or reset. -/
def Obligations.FrameBufferInEveryRun : Prop :=
  ∀ (p : Params) (schedule : List AgentStep) (k : Nat) (t : State), p.wf = true →
    run k (startWith p schedule) = .next t →
    HoldsReceived (receivedSinceClear k (startWith p schedule) []) t

/-- R41 over runs: after any number of steps from reset, under any schedule, OUT(c) is 0 or lies in [MIN(c), MAX(c)] as
these stood when OUT(c) was last written. -/
def Obligations.OutInEveryRun : Prop :=
  ∀ (p : Params) (schedule : List AgentStep) (k : Nat) (t : State) (c : Channel), p.wf = true →
    run k (startWith p schedule) = .next t →
    OutWithin c (boundsAtLastWrite c k (startWith p schedule)
      (((State.resetWith p).regs c).min, ((State.resetWith p).regs c).max)) t
end

