-- ==== Sys2Proof/Laws/State.lean ====
section
/-! SUPPORT. One lemma a field for each basic update of State, so that no later proof unfolds a record update. -/

namespace Sys2Proof.Machine

section
variable (s : State) (c : Channel)

/-! ### setRegs -/

@[simp] theorem setRegs_chan (r : ChanRegs) : (s.setRegs c r).chan = s.chan.set c r := rfl
@[simp] theorem setRegs_bank (r : ChanRegs) : (s.setRegs c r).bank = s.bank := rfl
@[simp] theorem setRegs_frameOk (r : ChanRegs) : (s.setRegs c r).frameOk = s.frameOk := rfl
@[simp] theorem setRegs_errShortFrame (r : ChanRegs) : (s.setRegs c r).errShortFrame = s.errShortFrame := rfl
@[simp] theorem setRegs_errIllegalCmd (r : ChanRegs) : (s.setRegs c r).errIllegalCmd = s.errIllegalCmd := rfl
@[simp] theorem setRegs_errBus (r : ChanRegs) : (s.setRegs c r).errBus = s.errBus := rfl
@[simp] theorem setRegs_errCfgLocked (r : ChanRegs) : (s.setRegs c r).errCfgLocked = s.errCfgLocked := rfl
@[simp] theorem setRegs_errTxOverrun (r : ChanRegs) : (s.setRegs c r).errTxOverrun = s.errTxOverrun := rfl
@[simp] theorem setRegs_oor (r : ChanRegs) : (s.setRegs c r).oor = s.oor := rfl
@[simp] theorem setRegs_sfLen (r : ChanRegs) : (s.setRegs c r).sfLen = s.sfLen := rfl
@[simp] theorem setRegs_rxBuf (r : ChanRegs) : (s.setRegs c r).rxBuf = s.rxBuf := rfl
@[simp] theorem setRegs_rxCount (r : ChanRegs) : (s.setRegs c r).rxCount = s.rxCount := rfl
@[simp] theorem setRegs_txPending (r : ChanRegs) : (s.setRegs c r).txPending = s.txPending := rfl
@[simp] theorem setRegs_txIdx (r : ChanRegs) : (s.setRegs c r).txIdx = s.txIdx := rfl
@[simp] theorem setRegs_cfgLock (r : ChanRegs) : (s.setRegs c r).cfgLock = s.cfgLock := rfl
@[simp] theorem setRegs_params (r : ChanRegs) : (s.setRegs c r).params = s.params := rfl
@[simp] theorem setRegs_hasReset (r : ChanRegs) : (s.setRegs c r).hasReset = s.hasReset := rfl
@[simp] theorem setRegs_resetCount (r : ChanRegs) : (s.setRegs c r).resetCount = s.resetCount := rfl
@[simp] theorem setRegs_pending (r : ChanRegs) : (s.setRegs c r).pending = s.pending := rfl
@[simp] theorem setRegs_replies (r : ChanRegs) : (s.setRegs c r).replies = s.replies := rfl
@[simp] theorem setRegs_sent (r : ChanRegs) : (s.setRegs c r).sent = s.sent := rfl

/-! ### setOor -/

@[simp] theorem setOor_chan (b : Bool) : (s.setOor c b).chan = s.chan := rfl
@[simp] theorem setOor_bank (b : Bool) : (s.setOor c b).bank = s.bank := rfl
@[simp] theorem setOor_frameOk (b : Bool) : (s.setOor c b).frameOk = s.frameOk := rfl
@[simp] theorem setOor_errShortFrame (b : Bool) : (s.setOor c b).errShortFrame = s.errShortFrame := rfl
@[simp] theorem setOor_errIllegalCmd (b : Bool) : (s.setOor c b).errIllegalCmd = s.errIllegalCmd := rfl
@[simp] theorem setOor_errBus (b : Bool) : (s.setOor c b).errBus = s.errBus := rfl
@[simp] theorem setOor_errCfgLocked (b : Bool) : (s.setOor c b).errCfgLocked = s.errCfgLocked := rfl
@[simp] theorem setOor_errTxOverrun (b : Bool) : (s.setOor c b).errTxOverrun = s.errTxOverrun := rfl
@[simp] theorem setOor_oor (b : Bool) : (s.setOor c b).oor = s.oor.set c b := rfl
@[simp] theorem setOor_sfLen (b : Bool) : (s.setOor c b).sfLen = s.sfLen := rfl
@[simp] theorem setOor_rxBuf (b : Bool) : (s.setOor c b).rxBuf = s.rxBuf := rfl
@[simp] theorem setOor_rxCount (b : Bool) : (s.setOor c b).rxCount = s.rxCount := rfl
@[simp] theorem setOor_txPending (b : Bool) : (s.setOor c b).txPending = s.txPending := rfl
@[simp] theorem setOor_txIdx (b : Bool) : (s.setOor c b).txIdx = s.txIdx := rfl
@[simp] theorem setOor_cfgLock (b : Bool) : (s.setOor c b).cfgLock = s.cfgLock := rfl
@[simp] theorem setOor_params (b : Bool) : (s.setOor c b).params = s.params := rfl
@[simp] theorem setOor_hasReset (b : Bool) : (s.setOor c b).hasReset = s.hasReset := rfl
@[simp] theorem setOor_resetCount (b : Bool) : (s.setOor c b).resetCount = s.resetCount := rfl
@[simp] theorem setOor_pending (b : Bool) : (s.setOor c b).pending = s.pending := rfl
@[simp] theorem setOor_replies (b : Bool) : (s.setOor c b).replies = s.replies := rfl
@[simp] theorem setOor_sent (b : Bool) : (s.setOor c b).sent = s.sent := rfl

/-! ### answer -/

@[simp] theorem answer_chan (x : HostReply) : (answer x s).chan = s.chan := rfl
@[simp] theorem answer_bank (x : HostReply) : (answer x s).bank = s.bank := rfl
@[simp] theorem answer_frameOk (x : HostReply) : (answer x s).frameOk = s.frameOk := rfl
@[simp] theorem answer_errShortFrame (x : HostReply) : (answer x s).errShortFrame = s.errShortFrame := rfl
@[simp] theorem answer_errIllegalCmd (x : HostReply) : (answer x s).errIllegalCmd = s.errIllegalCmd := rfl
@[simp] theorem answer_errBus (x : HostReply) : (answer x s).errBus = s.errBus := rfl
@[simp] theorem answer_errCfgLocked (x : HostReply) : (answer x s).errCfgLocked = s.errCfgLocked := rfl
@[simp] theorem answer_errTxOverrun (x : HostReply) : (answer x s).errTxOverrun = s.errTxOverrun := rfl
@[simp] theorem answer_oor (x : HostReply) : (answer x s).oor = s.oor := rfl
@[simp] theorem answer_sfLen (x : HostReply) : (answer x s).sfLen = s.sfLen := rfl
@[simp] theorem answer_rxBuf (x : HostReply) : (answer x s).rxBuf = s.rxBuf := rfl
@[simp] theorem answer_rxCount (x : HostReply) : (answer x s).rxCount = s.rxCount := rfl
@[simp] theorem answer_txPending (x : HostReply) : (answer x s).txPending = s.txPending := rfl
@[simp] theorem answer_txIdx (x : HostReply) : (answer x s).txIdx = s.txIdx := rfl
@[simp] theorem answer_cfgLock (x : HostReply) : (answer x s).cfgLock = s.cfgLock := rfl
@[simp] theorem answer_params (x : HostReply) : (answer x s).params = s.params := rfl
@[simp] theorem answer_hasReset (x : HostReply) : (answer x s).hasReset = s.hasReset := rfl
@[simp] theorem answer_resetCount (x : HostReply) : (answer x s).resetCount = s.resetCount := rfl
@[simp] theorem answer_pending (x : HostReply) : (answer x s).pending = s.pending := rfl
@[simp] theorem answer_replies (x : HostReply) : (answer x s).replies = s.replies ++ [x] := rfl
@[simp] theorem answer_sent (x : HostReply) : (answer x s).sent = s.sent := rfl

/-! ### clearRx -/

@[simp] theorem clearRx_chan : (clearRx s).chan = s.chan := rfl
@[simp] theorem clearRx_bank : (clearRx s).bank = s.bank := rfl
@[simp] theorem clearRx_frameOk : (clearRx s).frameOk = s.frameOk := rfl
@[simp] theorem clearRx_errShortFrame : (clearRx s).errShortFrame = s.errShortFrame := rfl
@[simp] theorem clearRx_errIllegalCmd : (clearRx s).errIllegalCmd = s.errIllegalCmd := rfl
@[simp] theorem clearRx_errBus : (clearRx s).errBus = s.errBus := rfl
@[simp] theorem clearRx_errCfgLocked : (clearRx s).errCfgLocked = s.errCfgLocked := rfl
@[simp] theorem clearRx_errTxOverrun : (clearRx s).errTxOverrun = s.errTxOverrun := rfl
@[simp] theorem clearRx_oor : (clearRx s).oor = s.oor := rfl
@[simp] theorem clearRx_sfLen : (clearRx s).sfLen = s.sfLen := rfl
@[simp] theorem clearRx_rxBuf : (clearRx s).rxBuf = s.rxBuf := rfl
@[simp] theorem clearRx_rxCount : (clearRx s).rxCount = 0 := rfl
@[simp] theorem clearRx_txPending : (clearRx s).txPending = s.txPending := rfl
@[simp] theorem clearRx_txIdx : (clearRx s).txIdx = s.txIdx := rfl
@[simp] theorem clearRx_cfgLock : (clearRx s).cfgLock = s.cfgLock := rfl
@[simp] theorem clearRx_params : (clearRx s).params = s.params := rfl
@[simp] theorem clearRx_hasReset : (clearRx s).hasReset = s.hasReset := rfl
@[simp] theorem clearRx_resetCount : (clearRx s).resetCount = s.resetCount := rfl
@[simp] theorem clearRx_pending : (clearRx s).pending = s.pending := rfl
@[simp] theorem clearRx_replies : (clearRx s).replies = s.replies := rfl
@[simp] theorem clearRx_sent : (clearRx s).sent = s.sent := rfl

/-! ### clearErrors -/

@[simp] theorem clearErrors_chan : (clearErrors s).chan = s.chan := rfl
@[simp] theorem clearErrors_bank : (clearErrors s).bank = s.bank := rfl
@[simp] theorem clearErrors_frameOk : (clearErrors s).frameOk = s.frameOk := rfl
@[simp] theorem clearErrors_errShortFrame : (clearErrors s).errShortFrame = false := rfl
@[simp] theorem clearErrors_errIllegalCmd : (clearErrors s).errIllegalCmd = false := rfl
@[simp] theorem clearErrors_errBus : (clearErrors s).errBus = false := rfl
@[simp] theorem clearErrors_errCfgLocked : (clearErrors s).errCfgLocked = false := rfl
@[simp] theorem clearErrors_errTxOverrun : (clearErrors s).errTxOverrun = false := rfl
@[simp] theorem clearErrors_oor : (clearErrors s).oor = s.oor := rfl
@[simp] theorem clearErrors_sfLen : (clearErrors s).sfLen = 0 := rfl
@[simp] theorem clearErrors_rxBuf : (clearErrors s).rxBuf = s.rxBuf := rfl
@[simp] theorem clearErrors_rxCount : (clearErrors s).rxCount = s.rxCount := rfl
@[simp] theorem clearErrors_txPending : (clearErrors s).txPending = s.txPending := rfl
@[simp] theorem clearErrors_txIdx : (clearErrors s).txIdx = s.txIdx := rfl
@[simp] theorem clearErrors_cfgLock : (clearErrors s).cfgLock = s.cfgLock := rfl
@[simp] theorem clearErrors_params : (clearErrors s).params = s.params := rfl
@[simp] theorem clearErrors_hasReset : (clearErrors s).hasReset = s.hasReset := rfl
@[simp] theorem clearErrors_resetCount : (clearErrors s).resetCount = s.resetCount := rfl
@[simp] theorem clearErrors_pending : (clearErrors s).pending = s.pending := rfl
@[simp] theorem clearErrors_replies : (clearErrors s).replies = s.replies := rfl
@[simp] theorem clearErrors_sent : (clearErrors s).sent = s.sent := rfl

/-! ### raise: the five errors touch their own bit, and ShortFrame also sf_len (R181) -/

@[simp] theorem raise_chan (e : Error) : (raise e s).chan = s.chan := by cases e <;> rfl
@[simp] theorem raise_bank (e : Error) : (raise e s).bank = s.bank := by cases e <;> rfl
@[simp] theorem raise_frameOk (e : Error) : (raise e s).frameOk = s.frameOk := by cases e <;> rfl
@[simp] theorem raise_oor (e : Error) : (raise e s).oor = s.oor := by cases e <;> rfl
@[simp] theorem raise_rxBuf (e : Error) : (raise e s).rxBuf = s.rxBuf := by cases e <;> rfl
@[simp] theorem raise_rxCount (e : Error) : (raise e s).rxCount = s.rxCount := by cases e <;> rfl
@[simp] theorem raise_txPending (e : Error) : (raise e s).txPending = s.txPending := by cases e <;> rfl
@[simp] theorem raise_txIdx (e : Error) : (raise e s).txIdx = s.txIdx := by cases e <;> rfl
@[simp] theorem raise_cfgLock (e : Error) : (raise e s).cfgLock = s.cfgLock := by cases e <;> rfl
@[simp] theorem raise_params (e : Error) : (raise e s).params = s.params := by cases e <;> rfl
@[simp] theorem raise_hasReset (e : Error) : (raise e s).hasReset = s.hasReset := by cases e <;> rfl
@[simp] theorem raise_resetCount (e : Error) : (raise e s).resetCount = s.resetCount := by cases e <;> rfl
@[simp] theorem raise_pending (e : Error) : (raise e s).pending = s.pending := by cases e <;> rfl
@[simp] theorem raise_replies (e : Error) : (raise e s).replies = s.replies := by cases e <;> rfl
@[simp] theorem raise_sent (e : Error) : (raise e s).sent = s.sent := by cases e <;> rfl

end

end Sys2Proof.Machine
end

