-- ==== Sys2Proof/Laws/Ops.lean ====
section
/-! SUPPORT. One lemma for each shared operation that says all it can do; later proofs cite it and do not unfold the
operation. -/

namespace Sys2Proof.Machine

/-! ## One thing for each channel -/

@[simp] theorem PerChannel.get_set_same {α : Type} (p : PerChannel α) (c : Channel) (a : α) :
    (p.set c a).get c = a := by cases c <;> rfl

@[simp] theorem PerChannel.get_set_ne {α : Type} (p : PerChannel α) {c d : Channel} (a : α) (h : d ≠ c) :
    (p.set c a).get d = p.get d := by cases c <;> cases d <;> first | rfl | exact absurd rfl h

theorem PerChannel.ext_get {α : Type} {p q : PerChannel α} (h : ∀ c, p.get c = q.get c) : p = q := by
  cases p; cases q
  have h0 := h .distance
  have h1 := h .yaw
  have h2 := h .pitch
  simp_all [PerChannel.get]

@[simp] theorem PerChannel.set_set {α : Type} (p : PerChannel α) (c : Channel) (a b : α) :
    (p.set c a).set c b = p.set c b := by cases c <;> rfl

theorem PerChannel.set_comm {α : Type} (p : PerChannel α) {c d : Channel} (a b : α) (h : c ≠ d) :
    (p.set c a).set d b = (p.set d b).set c a := by
  cases c <;> cases d <;> first | rfl | exact absurd rfl h

@[simp] theorem regs_setRegs_same (s : State) (c : Channel) (r : ChanRegs) : (s.setRegs c r).regs c = r :=
  PerChannel.get_set_same _ _ _

@[simp] theorem regs_setRegs_ne (s : State) {c d : Channel} (r : ChanRegs) (h : d ≠ c) :
    (s.setRegs c r).regs d = s.regs d := PerChannel.get_set_ne _ _ h

@[simp] theorem regs_setOor (s : State) (c d : Channel) (b : Bool) : (s.setOor c b).regs d = s.regs d := rfl

/-! ## The register window -/

/-- The table finds every register at its own offset (R55). -/
theorem regAt_regOffset (r : Reg) : regAt (regOffset r) = some r := by
  cases r with
  | cmd => decide
  | status => decide
  | reqFrame => decide
  | chan c k => cases c <;> cases k <;> decide
  | bank i => revert i; decide

/-- What a passed check says (R54). -/
theorem accessCheck_ok {dir : Dir} {a : BitVec 8} {n : Size} {s : State} {r : Reg}
    (h : accessCheck dir a n s = .ok r) :
    n = .four ∧ regAt a = some r ∧ accessAllowed dir r = true ∧
      ¬ (dir = .write ∧ lockable r = true ∧ s.cfgLock = true) := by
  unfold accessCheck at h
  split at h
  · cases h
  rename_i hn
  split at h
  · cases h
  split at h
  · cases h
  rename_i r' hr
  split at h
  · cases h
  rename_i ha
  split at h
  · cases h
  rename_i hl
  cases h
  exact ⟨not_not.mp hn, hr, by simpa using ha, hl⟩

/-- What a failed check says: BusError of the offset, or CfgLocked of it at a locked write (R54, R184). -/
theorem accessCheck_error {dir : Dir} {a : BitVec 8} {n : Size} {s : State} {e : Error}
    (h : accessCheck dir a n s = .error e) :
    e = .busError a ∨
      (e = .cfgLocked a ∧ dir = .write ∧ s.cfgLock = true ∧ ∃ r, regAt a = some r ∧ lockable r = true) := by
  unfold accessCheck at h
  split at h
  · cases h; exact .inl rfl
  split at h
  · cases h; exact .inl rfl
  split at h
  · cases h; exact .inl rfl
  rename_i r hr
  split at h
  · cases h; exact .inl rfl
  split at h
  · rename_i hl
    cases h
    exact .inr ⟨rfl, hl.1, hl.2.2, r, hr, hl.2.1⟩
  · cases h

/-- A 32-bit access at a register's own offset is decided by its access column and the lock (R54, R55). -/
theorem accessCheck_regOffset (dir : Dir) (r : Reg) (s : State) :
    accessCheck dir (regOffset r) .four s =
      if accessAllowed dir r = false then .error (.busError (regOffset r))
      else if dir = .write ∧ lockable r = true ∧ s.cfgLock = true then .error (.cfgLocked (regOffset r))
      else .ok r := by
  have hAligned : (regOffset r).toNat % 4 = 0 := by
    cases r with
    | chan c k => cases c <;> cases k <;> rfl
    | bank i => revert i; decide
    | _ => rfl
  simp [accessCheck, hAligned, regAt_regOffset]

/-- An address BLOCK_BASE + a is at offset a (R51). -/
theorem windowOffset_base_add (p : Params) (a : BitVec 8) : windowOffset p (p.blockBase + a.toNat) = some a := by
  have := a.isLt
  simp [windowOffset]
  omega

/-- The window's first address is CMD's. -/
theorem windowOffset_base (p : Params) : windowOffset p p.blockBase = some 0 := by
  simpa using windowOffset_base_add p 0

/-! ## The ports and the frame -/

/-- The count after one more byte, capped at 255 (R100). -/
theorem countByte_toNat (n : BitVec 8) : (countByte n).toNat = min 255 (n.toNat + 1) := by
  have := n.isLt
  unfold countByte
  split
  · rw [BitVec.toNat_add]; simp; omega
  · omega

/-- The buffer after one more byte (R100). -/
theorem storeByte_getElem (buf : Vector Byte 14) (n : BitVec 8) (b : Byte) (k : Nat) (h : k < 14) :
    (storeByte buf n b)[k] = if k = n.toNat then b else buf[k] := by
  unfold storeByte
  split
  · rw [Vector.getElem_set]
    simp only [eq_comm]
  · rw [if_neg (by omega)]

/-- All that `tx_take` does while a request is pending (R104). -/
theorem takeByte_eq (s : State) :
    takeByte s = { s with
      txPending := if s.txIdx = 3 then false else s.txPending
      txIdx := if s.txIdx = 3 then 0 else s.txIdx + 1
      sent := s.sent ++ [reqByte s.txIdx] } := by
  unfold takeByte
  split <;> simp_all

/-- PARSE of a 14-byte frame (R108). -/
theorem parseFrame_good {s : State} (h : s.rxCount = 14) :
    parseFrame s = { loadFrame s with rxCount := 0, frameOk := true } := by
  unfold parseFrame
  rw [if_pos h]
  rfl

/-- PARSE of a frame of any other length (R108, R180). -/
theorem parseFrame_short {s : State} (h : s.rxCount ≠ 14) :
    parseFrame s =
      { s with rxCount := 0, frameOk := false, sfLen := s.rxCount, errShortFrame := true } := by
  unfold parseFrame
  rw [if_neg h]
  rfl

/-! ## The calibrator -/

/-- Every code the calibrator computes fits in 32 bits with room to spare (R40). -/
theorem calib_bounds (r : ChanRegs) : -65536 ≤ calib r ∧ calib r ≤ 16776959 := by
  have h1 : r.raw.toNat ≤ 255 := by have := r.raw.isLt; omega
  have h2 : r.scale.toNat ≤ 65535 := by have := r.scale.isLt; omega
  have h3 : r.raw.toNat * r.scale.toNat ≤ 255 * 65535 := Nat.mul_le_mul h1 h2
  have hb := BitVec.le_toInt r.bias
  have hb' := BitVec.toInt_lt (x := r.bias)
  have ho := BitVec.le_toInt r.offset
  have ho' := BitVec.toInt_lt (x := r.offset)
  unfold calib
  have h4 : ((r.raw.toNat : Int) * r.scale.toNat) ≤ 255 * 65535 := by exact_mod_cast h3
  have h5 : 0 ≤ ((r.raw.toNat : Int) * r.scale.toNat) := by positivity
  norm_num at *
  constructor <;> omega

/-- So encoding the code in 32 bits loses nothing (R40). -/
theorem calib_toInt (r : ChanRegs) : (BitVec.ofInt 32 (calib r)).toInt = calib r := by
  have := calib_bounds r
  rw [BitVec.toInt_ofInt, Int.bmod_eq_of_le] <;> norm_num <;> omega

/-- All that VAL does (R136). -/
theorem validate_eq (c : Channel) (s : State) :
    validate c s = { s with
      chan := s.chan.set c { s.chan.get c with
        out := if inRange (s.regs c) (s.regs c).calv.toInt then (s.regs c).calv else 0 }
      oor := s.oor.set c (!inRange (s.regs c) (s.regs c).calv.toInt) } := by
  unfold validate
  split <;> simp_all [State.setRegs, State.setOor, State.regs]

/-- All that CALVAL does (R140). -/
theorem calval_eq (c : Channel) (s : State) :
    validate c (calibrate c s) = { s with
      chan := s.chan.set c { s.chan.get c with
        calv := BitVec.ofInt 32 (calib (s.regs c))
        out := if inRange (s.regs c) (calib (s.regs c)) then BitVec.ofInt 32 (calib (s.regs c)) else 0 }
      oor := s.oor.set c (!inRange (s.regs c) (calib (s.regs c))) } := by
  rw [validate_eq]
  simp only [calibrate, regs_setRegs_same, setRegs_chan, PerChannel.set_set, PerChannel.get_set_same, calib_toInt]
  rfl

/-- The range check as a proposition (R134). -/
theorem inRange_iff (r : ChanRegs) (v : Int) : inRange r v = true ↔ r.min.toInt ≤ v ∧ v ≤ r.max.toInt := by
  simp [inRange]

end Sys2Proof.Machine
end

