-- ==== Sys2Proof/Laws/PerInstr.lean ====
section
/-! SUPPORT. Facts about every command as syntax, one lemma a constructor. -/

/-- The command's word has legal fields (30_encoding.md R87): its reserved bits are 0, its opcode is assigned, and its
channel field is one the opcode takes. -/
def Sys2Proof.Laws.Legal.Statement (i : Sys2Proof.Instr) : Prop :=
  (Sys2Proof.splitWord (Sys2Proof.encode i)).legal = true

namespace Sys2Proof.Laws.Legal

theorem nop : Statement .nop := by unfold Statement; decide
theorem buildReq : Statement .buildReq := by unfold Statement; decide
theorem parse : Statement .parse := by unfold Statement; decide
theorem rxClear : Statement .rxClear := by unfold Statement; decide
theorem cal (c : Channel) : Statement (.cal c) := by cases c <;> (unfold Statement; decide)
theorem val (c : Channel) : Statement (.val c) := by cases c <;> (unfold Statement; decide)
theorem calval (c : Channel) : Statement (.calval c) := by cases c <;> (unfold Statement; decide)
theorem decode : Statement .decode := by unfold Statement; decide
theorem clrStatus : Statement .clrStatus := by unfold Statement; decide
theorem lockCfg : Statement .lockCfg := by unfold Statement; decide

end Sys2Proof.Laws.Legal
end

