-- ==== Sys2Proof/Laws/Step.lean ====
section
/-! SUPPORT. What one step can do, said once: `step_takes` lists every way a step ends in a next state. -/

namespace Sys2Proof.Machine

/-! ## Commands -/

/-- Every command ends in a next state (R13): no meaning faults or refuses. -/
theorem exec_completes (i : Instr) (s : State) : ∃ t, exec i s = .next t := by
  cases i with
  | buildReq =>
    simp only [exec, execBuildReq]
    split <;> exact ⟨_, rfl⟩
  | decode =>
    simp only [exec, execDecode]
    split <;> exact ⟨_, rfl⟩
  | _ => exact ⟨_, rfl⟩

/-- What is not the block's is the same in two states: parameters, schedule, and the records of what left the block. -/
structure SameSurroundings (s t : State) : Prop where
  params : t.params = s.params
  hasReset : t.hasReset = s.hasReset
  resetCount : t.resetCount = s.resetCount
  pending : t.pending = s.pending
  replies : t.replies = s.replies
  sent : t.sent = s.sent

theorem SameSurroundings.refl (s : State) : SameSurroundings s s := ⟨rfl, rfl, rfl, rfl, rfl, rfl⟩

theorem SameSurroundings.trans {s t u : State} (h : SameSurroundings s t) (k : SameSurroundings t u) :
    SameSurroundings s u :=
  ⟨k.params.trans h.params, k.hasReset.trans h.hasReset, k.resetCount.trans h.resetCount,
    k.pending.trans h.pending, k.replies.trans h.replies, k.sent.trans h.sent⟩

theorem parseFrame_surroundings (s : State) : SameSurroundings s (parseFrame s) := by
  by_cases hn : s.rxCount = 14
  · rw [parseFrame_good hn]; exact ⟨rfl, rfl, rfl, rfl, rfl, rfl⟩
  · rw [parseFrame_short hn]; exact ⟨rfl, rfl, rfl, rfl, rfl, rfl⟩

theorem calval_surroundings (c : Channel) (s : State) : SameSurroundings s (validate c (calibrate c s)) := by
  rw [validate_eq]; exact ⟨rfl, rfl, rfl, rfl, rfl, rfl⟩

/-- A command leaves the surroundings as they are. -/
theorem exec_keeps_surroundings {i : Instr} {s t : State} (h : exec i s = .next t) : SameSurroundings s t := by
  cases i with
  | buildReq =>
    simp only [exec, execBuildReq] at h
    split at h <;> cases h <;> exact ⟨rfl, rfl, rfl, rfl, rfl, rfl⟩
  | parse => cases h; exact parseFrame_surroundings s
  | decode =>
    simp only [exec, execDecode] at h
    have hp := parseFrame_surroundings s
    generalize parseFrame s = u at h hp
    split at h
    · obtain rfl : calvalAll u = t := Host.Outcome.next.inj h
      exact hp.trans ((calval_surroundings _ _).trans ((calval_surroundings _ _).trans (calval_surroundings _ _)))
    · obtain rfl : u = t := Host.Outcome.next.inj h
      exact hp
  | val c => cases h; rw [validate_eq]; exact ⟨rfl, rfl, rfl, rfl, rfl, rfl⟩
  | calval c => cases h; exact calval_surroundings c s
  | _ => cases h; exact ⟨rfl, rfl, rfl, rfl, rfl, rfl⟩

/-- All that CALVAL on the three channels does: only channels and OOR bits change (R163). -/
theorem calvalAll_eq (s : State) :
    calvalAll s = { s with chan := (calvalAll s).chan, oor := (calvalAll s).oor } := by
  simp only [calvalAll, calval_eq]

/-- Each channel is left as its own CALVAL leaves it: the order does not show (R164 (a)). -/
theorem calvalAll_channel (s : State) (c : Channel) :
    (calvalAll s).regs c = { s.regs c with
      calv := BitVec.ofInt 32 (calib (s.regs c))
      out := if inRange (s.regs c) (calib (s.regs c)) then BitVec.ofInt 32 (calib (s.regs c)) else 0 } ∧
    (calvalAll s).oor.get c = !inRange (s.regs c) (calib (s.regs c)) := by
  simp only [calvalAll, calval_eq]
  cases c <;> exact ⟨rfl, rfl⟩

/-- DECODE on a 14-byte frame (R163). -/
theorem exec_decode_good {s : State} (h : s.rxCount = 14) :
    exec .decode s = .next (calvalAll (parseFrame s)) := by
  simp [exec, execDecode, parseFrame_good h]

/-- DECODE on any other frame (R163, R180). -/
theorem exec_decode_short {s : State} (h : s.rxCount ≠ 14) :
    exec .decode s = .next
      { s with rxCount := 0, frameOk := false, sfLen := s.rxCount, errShortFrame := true } := by
  unfold exec execDecode
  rw [parseFrame_short h]
  rfl

/-! ## Steps -/

/-- An access to the window errs as its access check does (R54) … -/
theorem accessError_of_check {dir : Dir} {addr : Nat} {a : BitVec 8} {n : Size} {s : State} {e : Error}
    (ha : windowOffset s.params addr = some a) (he : accessCheck dir a n s = .error e) :
    accessError dir addr n s = some e := by simp [accessError, ha, he]

/-- … and does not err if the check passes. -/
theorem accessError_of_ok {dir : Dir} {addr : Nat} {a : BitVec 8} {n : Size} {s : State} {r : Reg}
    (ha : windowOffset s.params addr = some a) (he : accessCheck dir a n s = .ok r) :
    accessError dir addr n s = none := by simp [accessError, ha, he]

/-- Every way a step of the machine ends in a next state. -/
inductive Takes (s : State) : State → Prop where
  | idle (hp : s.pending = []) : Takes s s
  | readOk (r : Reg) (addr : Nat) (n : Size) (rest : List AgentStep)
      (hp : s.pending = .hostRead addr n :: rest) (he : nextAccessError s = none) :
      Takes s { s with pending := rest, replies := s.replies ++ [.read (readReg r s) .ok] }
  | readErr (addr : Nat) (n : Size) (a : BitVec 8) (rest : List AgentStep)
      (hp : s.pending = .hostRead addr n :: rest) (he : nextAccessError s = some (.busError a)) :
      Takes s { s with pending := rest, errBus := true, replies := s.replies ++ [.read 0 .err] }
  | writeBusError (addr : Nat) (n : Size) (v : Word) (a : BitVec 8) (rest : List AgentStep)
      (hp : s.pending = .hostWrite addr n v :: rest) (hc : nextCommand s = none)
      (hi : nextIsIllegal s = false) (he : nextAccessError s = some (.busError a)) :
      Takes s { s with pending := rest, errBus := true, replies := s.replies ++ [.write .err] }
  | writeLocked (addr : Nat) (n : Size) (v : Word) (a : BitVec 8) (rest : List AgentStep)
      (hp : s.pending = .hostWrite addr n v :: rest) (hc : nextCommand s = none)
      (hi : nextIsIllegal s = false) (he : nextAccessError s = some (.cfgLocked a)) (hl : s.cfgLock = true) :
      Takes s { s with pending := rest, errCfgLocked := true, replies := s.replies ++ [.write .err] }
  | store (c : Channel) (k : ChanReg) (addr : Nat) (v : Word) (rest : List AgentStep)
      (hp : s.pending = .hostWrite addr .four v :: rest) (hc : nextCommand s = none)
      (hi : nextIsIllegal s = false) (he : nextAccessError s = none)
      (hk : k ≠ .out) (hl : lockable (.chan c k) = true → s.cfgLock = false) :
      Takes s { s with
        pending := rest
        chan := s.chan.set c (storeChanReg (s.regs c) k v)
        replies := s.replies ++ [.write .ok] }
  | illegal (addr : Nat) (v : Word) (rest : List AgentStep)
      (hp : s.pending = .hostWrite addr .four v :: rest) (hc : nextCommand s = none)
      (hi : nextIsIllegal s = true) (he : nextAccessError s = none) :
      Takes s { s with pending := rest, errIllegalCmd := true, replies := s.replies ++ [.write .ok] }
  | command (i : Instr) (t : State) (addr : Nat) (v : Word) (rest : List AgentStep)
      (hp : s.pending = .hostWrite addr .four v :: rest) (hc : nextCommand s = some i)
      (hi : nextIsIllegal s = false) (he : nextAccessError s = none)
      (hx : exec i { s with pending := rest } = .next t) :
      Takes s { t with replies := t.replies ++ [.write .ok] }
  | rx (b : Byte) (rest : List AgentStep) (hp : s.pending = .rxPush b :: rest) :
      Takes s (rxPush b { s with pending := rest })
  | tx (rest : List AgentStep) (hp : s.pending = .txTake :: rest) (hb : s.txPending = true) :
      Takes s (takeByte { s with pending := rest })
  | reset (rest : List AgentStep) (hp : s.pending = .reset :: rest) :
      Takes s (resetBlock { s with pending := rest })

/-- Only CMD's own offset names CMD (R55). -/
theorem regAt_cmd {a : BitVec 8} (h : regAt a = some .cmd) : a = 0 := by
  revert h; revert a; decide

/-- A register a write may go to is CMD or a channel's register other than OUT (R55). -/
theorem writable_cases {r : Reg} (h : accessAllowed .write r = true) :
    r = .cmd ∨ ∃ c k, r = .chan c k ∧ k ≠ .out := by
  cases r with
  | cmd => exact .inl rfl
  | chan c k => exact .inr ⟨c, k, rfl, by rintro rfl; simp [accessAllowed] at h⟩
  | _ => simp [accessAllowed] at h

/-- A step that ends in a next state does one of these things. -/
theorem step_takes {s t : State} (h : step s = .next t) : Takes s t := by
  unfold step stepSchedule at h
  split at h
  swap
  · cases h
  split at h
  · rename_i hp
    cases h
    exact .idle hp
  rename_i e rest hp
  split at h
  swap
  · cases h
  cases e with
  | rxPush b => cases h; exact .rx b rest hp
  | reset => cases h; exact .reset rest hp
  | txTake =>
    simp only [agentStep, txTake] at h
    split at h
    · rename_i hb
      cases h
      exact .tx rest hp hb
    · cases h
  | hostRead addr n =>
    simp only [agentStep] at h
    split at h
    · cases h
    rename_i a ha
    have hread : nextAccessError s = accessError .read addr n s := by simp [nextAccessError, hp]
    cases h
    unfold memRead
    split
    · rename_i e he
      have herr := hread.trans (accessError_of_check ha he)
      obtain rfl | ⟨-, hd, -⟩ := accessCheck_error he
      · exact .readErr addr n a rest hp herr
      · cases hd
    · rename_i r hr
      exact .readOk _ addr n rest hp (hread.trans (accessError_of_ok ha hr))
  | hostWrite addr n v =>
    simp only [agentStep] at h
    split at h
    · cases h
    rename_i a ha
    have ha' : windowOffset s.params addr = some a := ha
    have hnone (hne : n ≠ .four ∨ a ≠ 0) : nextCommand s = none := by
      unfold nextCommand
      rw [hp]
      cases n <;> simp_all
    have hlegal (hne : n ≠ .four ∨ a ≠ 0) : nextIsIllegal s = false := by
      unfold nextIsIllegal
      rw [hp]
      cases n <;> simp_all
    have hwrite : nextAccessError s = accessError .write addr n s := by simp [nextAccessError, hp]
    unfold memWrite at h
    split at h
    · rename_i e he
      cases h
      have hne : n ≠ .four ∨ a ≠ 0 := by
        by_contra hcon
        push Not at hcon
        obtain ⟨rfl, rfl⟩ := hcon
        have := accessCheck_regOffset .write .cmd { s with pending := rest }
        rw [show regOffset .cmd = (0 : BitVec 8) from rfl, he] at this
        simp [accessAllowed, lockable] at this
      have herr := hwrite.trans (accessError_of_check ha' he)
      obtain rfl | ⟨rfl, -, hl, -⟩ := accessCheck_error he
      · exact .writeBusError addr n v a rest hp (hnone hne) (hlegal hne) herr
      · exact .writeLocked addr n v a rest hp (hnone hne) (hlegal hne) herr hl
    · rename_i he
      have hok := hwrite.trans (accessError_of_ok ha' he)
      obtain ⟨rfl, hr, -, -⟩ := accessCheck_ok he
      obtain rfl := regAt_cmd hr
      unfold executeCommand at h
      split at h
      · rename_i e hd
        cases h
        exact .illegal addr v rest hp (by simp [nextCommand, hp, ha', hd, Except.toOption])
          (by simp [nextIsIllegal, hp, ha', hd, Except.toOption]) hok
      · rename_i i hd
        obtain ⟨u, hu⟩ := exec_completes i { s with pending := rest }
        rw [hu] at h
        cases h
        exact .command i u addr v rest hp (by simp [nextCommand, hp, ha', hd, Except.toOption])
          (by simp [nextIsIllegal, hp, ha', hd, Except.toOption]) hok hu
    · rename_i r hr he
      have hok := hwrite.trans (accessError_of_ok ha' he)
      obtain ⟨rfl, hat, hw, hl⟩ := accessCheck_ok he
      obtain rfl | ⟨c, k, rfl, hk⟩ := writable_cases hw
      · exact absurd rfl hr
      cases h
      have hne : a ≠ 0 := by
        rintro rfl
        have : regAt 0 = some .cmd := by decide
        rw [this] at hat
        cases hat
      exact .store c k addr v rest hp (hnone (.inr hne)) (hlegal (.inr hne)) hok hk
        (fun hlock => by simpa [hlock] using hl)

end Sys2Proof.Machine
end

