-- ==== Sys2Proof/Tests/Slice0.lean ====
section
/-! SUPPORT. The model's own tests. The expected values are the spec's (95_test_vectors.md's vectors V and scenarios S, the
examples inside the rules), or worked out by hand from a rule; each test names its source. Then one witness for each
claim that has hypotheses. -/

namespace Sys2Proof.Tests

open Sys2Proof.Machine

/-! ## Well-formedness refuses each ill-formed term -/

/-- R87 (a): RSV = 1. -/
theorem test_wf_reserved : CmdFields.legal ⟨0x00, 0, 1⟩ = false := by decide
/-- R87 (b): OP = 0x0A is the first unassigned opcode, 0x09 the last assigned one. -/
theorem test_wf_opcode : CmdFields.legal ⟨0x0A, 0, 0⟩ = false ∧ CmdFields.legal ⟨0x09, 0, 0⟩ = true := by decide
/-- R87 (c): DECODE takes no channel. -/
theorem test_wf_no_channel : CmdFields.legal ⟨0x07, 3, 0⟩ = false := by decide
/-- R87 (d): channel 3; channel 2 is the last one. -/
theorem test_wf_channel : CmdFields.legal ⟨0x04, 3, 0⟩ = false ∧ CmdFields.legal ⟨0x04, 2, 0⟩ = true := by decide
/-- R7 and R198, one broken constraint at a time: DEN_D. -/
theorem test_wf_denD :
    Params.wf ⟨0, 2, 2, 0, 1⟩ = false ∧ Params.wf ⟨15, 2, 2, 0, 1⟩ = false ∧
    Params.wf ⟨655360, 2, 2, 0, 1⟩ = false ∧ Params.wf ⟨655350, 2, 2, 0, 1⟩ = true := by decide
/-- R7: DEN_Y. -/
theorem test_wf_denY :
    Params.wf ⟨10, 0, 2, 0, 1⟩ = false ∧ Params.wf ⟨10, 3, 2, 0, 1⟩ = false ∧
    Params.wf ⟨10, 820, 2, 0, 1⟩ = false ∧ Params.wf ⟨10, 818, 2, 0, 1⟩ = true := by decide
/-- R7: DEN_P. -/
theorem test_wf_denP :
    Params.wf ⟨10, 2, 0, 0, 1⟩ = false ∧ Params.wf ⟨10, 2, 3, 0, 1⟩ = false ∧
    Params.wf ⟨10, 2, 820, 0, 1⟩ = false ∧ Params.wf ⟨10, 2, 818, 0, 1⟩ = true := by decide
/-- R198: two hosts, or none, are no configuration. -/
theorem test_wf_hosts : Params.wf ⟨10, 2, 2, 0, 2⟩ = false ∧ Params.wf ⟨10, 2, 2, 0, 0⟩ = false := by decide
/-- R92: SETOFF's range and the codes just outside it. -/
theorem test_wf_setoff :
    Line.wf (.setOff .yaw 32768) = false ∧ Line.wf (.setOff .yaw (-32769)) = false ∧
    Line.wf (.setOff .yaw 32767) = true ∧ Line.wf (.setOff .yaw (-32768)) = true := by decide

/-! ## Words written out bit by bit from R84 and R86: RSV (22 bits), CH (2 bits), OP (8 bits) -/

theorem test_decode_nop :
    decode (0b0000000000000000000000#22 ++ 0b00#2 ++ 0b00000000#8) = .ok .nop := by decide
theorem test_decode_buildReq :
    decode (0b0000000000000000000000#22 ++ 0b00#2 ++ 0b00000001#8) = .ok .buildReq := by decide
theorem test_decode_parse :
    decode (0b0000000000000000000000#22 ++ 0b00#2 ++ 0b00000010#8) = .ok .parse := by decide
theorem test_decode_rxClear :
    decode (0b0000000000000000000000#22 ++ 0b00#2 ++ 0b00000011#8) = .ok .rxClear := by decide
theorem test_decode_cal :
    decode (0b0000000000000000000000#22 ++ 0b00#2 ++ 0b00000100#8) = .ok (.cal .distance) := by decide
theorem test_decode_val :
    decode (0b0000000000000000000000#22 ++ 0b01#2 ++ 0b00000101#8) = .ok (.val .yaw) := by decide
theorem test_decode_calval :
    decode (0b0000000000000000000000#22 ++ 0b10#2 ++ 0b00000110#8) = .ok (.calval .pitch) := by decide
theorem test_decode_decode :
    decode (0b0000000000000000000000#22 ++ 0b00#2 ++ 0b00000111#8) = .ok .decode := by decide
theorem test_decode_clrStatus :
    decode (0b0000000000000000000000#22 ++ 0b00#2 ++ 0b00001000#8) = .ok .clrStatus := by decide
theorem test_decode_lockCfg :
    decode (0b0000000000000000000000#22 ++ 0b00#2 ++ 0b00001001#8) = .ok .lockCfg := by decide
/-- V45 to V49: the illegal words. -/
theorem test_decode_illegal :
    decode 0x00000100 = .error .channelNotTaken ∧ decode 0x0000000A = .error .unassignedOpcode ∧
    decode 0x00000304 = .error .noSuchChannel ∧ decode 0x00000307 = .error .channelNotTaken ∧
    decode 0x80000002 = .error .reservedBits := by decide
/-- The opcode table's rows as the host gives them (R86). -/
theorem test_decode_table_word :
    decodeTableWord 32 0x00000204 = some (.cal .pitch) ∧ decodeTableWord 32 0x00000009 = some .lockCfg ∧
    decodeTableWord 32 0x00000304 = none := by decide

/-! ## One step -/

/-- The state after one step, if the step ends in one. -/
def after (s : State) : Option State :=
  match step s with
  | .next t => some t
  | _ => none

/-- The state after the host writes a word to CMD. -/
def issue (w : Nat) (s : State) : Option State := after (s.withFetchWord 32 w)

/-- A host write to an offset of the window, from s. -/
def write (off : Nat) (v : Word) (s : State) : Option State := after { s with pending := [.hostWrite off .four v] }

/-- The state right after reset with bytes in the frame buffer and a count. -/
def received (buf : Vector Byte 14) (n : BitVec 8) : State := { State.reset with rxBuf := buf, rxCount := n }

/-- The state right after reset with one channel's registers changed. -/
def with1 (c : Channel) (f : ChanRegs → ChanRegs) : State := State.reset.setRegs c (f (State.reset.regs c))

/-- V4's bytes. -/
def v4 : Vector Byte 14 := #v[0, 1, 2, 3, 4, 5, 6, 7, 8, 9, 10, 11, 12, 13]

/-- S1's bytes, with opaque bytes AA 55 and 0D (program P1). -/
def s1 : Vector Byte 14 := #v[0xAA, 0x55, 205, 100, 100, 10, 20, 30, 40, 50, 60, 70, 80, 0x0D]

/-- V44. -/
theorem test_nop : (issue 0x0 State.reset).map (readReg .status) = some 0 := by decide
/-- V11. -/
theorem test_buildReq : (issue 0x1 State.reset).map (readReg .status) = some 0x00000040 := by decide
/-- V14: an overrun, and the request goes on from where it stood. -/
theorem test_buildReq_overrun :
    (issue 0x1 { State.reset with txPending := true, txIdx := 2 }).map (fun t => (readReg .status t, t.txIdx)) =
      some (0x00000060, 2) := by decide
/-- V4: RAW = 2, 3, 4; BANK = 5 to 12; CALV and OUT stay 0. -/
theorem test_parse :
    (issue 0x2 (received v4 14)).map (fun t => (readReg .status t, readReg (.chan .distance .calv) t, t.bank)) =
      some (0x00000001, 0, #v[5, 6, 7, 8, 9, 10, 11, 12]) ∧
    (issue 0x2 (received v4 14)).map (fun t => (readReg (.chan .distance .raw) t, readReg (.chan .yaw .raw) t,
      readReg (.chan .pitch .raw) t)) = some (2, 3, 4) := by decide
/-- V5: 15 bytes are a short frame of 15; RAW and BANK stay 0. -/
theorem test_parse_long :
    (issue 0x2 (received v4 15)).map (fun t => (readReg .status t, readReg (.chan .yaw .raw) t, t.bank)) =
      some (0x000F0002, 0, #v[0, 0, 0, 0, 0, 0, 0, 0]) := by decide
/-- V9's clear and R112: RX_COUNT becomes 0 and no ShortFrame is raised. -/
theorem test_rxClear : (issue 0x3 (received v4 3)).map (readReg .status) = some 0 := by decide
/-- R131's example (yaw, raw 100): CALV(1) = 20; OUT(1) stays 0. -/
theorem test_cal :
    (issue 0x104 (with1 .yaw fun r => { r with raw := 100 })).map
      (fun t => (readReg (.chan .yaw .calv) t, readReg (.chan .yaw .out) t)) = some (20, 0) := by decide
/-- V37: the smallest code. -/
theorem test_cal_smallest :
    (issue 0x004 (with1 .distance fun r => { r with bias := 0x8000, offset := 0x8000 })).map
      (readReg (.chan .distance .calv)) = some 0xFFFF0000 := by decide
/-- V41: a value the host wrote, at the upper bound. -/
theorem test_val :
    (issue 0x105 (with1 .yaw fun r => { r with calv := 60 })).map
      (fun t => (readReg (.chan .yaw .out) t, readReg .status t)) = some (60, 0) := by decide
/-- V40: −2^31 is out of range: the sentinel and OOR[0]. -/
theorem test_val_out :
    (issue 0x005 (with1 .distance fun r => { r with calv := 0x80000000 })).map
      (fun t => (readReg (.chan .distance .out) t, readReg .status t)) = some (0, 0x00000100) := by decide
/-- V36: the largest code. -/
theorem test_calval :
    (issue 0x006 (with1 .distance fun r =>
        { r with raw := 255, scale := 65535, bias := 32767, offset := 32767, max := 0x7FFFFFFF })).map
      (fun t => (readReg (.chan .distance .calv) t, readReg (.chan .distance .out) t, readReg .status t)) =
      some (16776959, 16776959, 0) := by decide
/-- R140's example (pitch, raw 19): CALV(2) = −61, OUT(2) = 0, OOR[2] = 1. -/
theorem test_calval_out :
    (issue 0x206 (with1 .pitch fun r => { r with raw := 19, out := 7 })).map
      (fun t => (readReg (.chan .pitch .calv) t, readReg (.chan .pitch .out) t, readReg .status t)) =
      some (0xFFFFFFC3, 0, 0x00000400) := by decide
/-- S1. -/
theorem test_decode :
    (issue 0x7 (received s1 14)).map (fun t => (readReg (.chan .distance .out) t, readReg (.chan .yaw .out) t,
      readReg (.chan .pitch .out) t)) = some (205, 20, 20) ∧
    (issue 0x7 (received s1 14)).map (fun t => (readReg .status t, t.bank)) =
      some (0x00000001, #v[10, 20, 30, 40, 50, 60, 70, 80]) := by decide
/-- S3: ten bytes are a short frame of 10, and RAW and BANK keep their values. -/
theorem test_decode_short :
    (issue 0x7 (received s1 10)).map
      (fun t => (readReg .status t, readReg (.chan .distance .raw) t, t.bank[0], readReg (.chan .yaw .calv) t)) =
      some (0x000A0002, 0, 0, 0) := by decide
/-- R165's example: STATUS 0x000A0002 becomes 0. -/
theorem test_clrStatus :
    (issue 0x8 { State.reset with errShortFrame := true, sfLen := 10 }).map (readReg .status) = some 0 := by decide
/-- P4 row 13's kind and R165: FRAME_OK, TX_BUSY, CFG_LOCK, OOR and RX_COUNT stay; bits worked out from R32. -/
theorem test_clrStatus_keeps :
    (issue 0x8 { State.reset with
        frameOk := true, errBus := true, errCfgLocked := true, txPending := true, cfgLock := true
        oor := ⟨true, false, true⟩, sfLen := 3, rxCount := 12 }).map (readReg .status) =
      some 0x0C0005C1 := by decide
/-- P2 row 4. -/
theorem test_lockCfg : (issue 0x9 State.reset).map (readReg .status) = some 0x00000080 := by decide

/-- V51: a locked write returns ERR, SCALE(0) stays 1. -/
theorem test_write_locked :
    (write 0x44 2 { State.reset with cfgLock := true }).map
      (fun t => (t.replies, readReg (.chan .distance .scale) t, readReg .status t)) =
      some ([.write .err], 1, 0x00000090) := by decide
/-- V52: the offsets stay writable. -/
theorem test_write_offset_locked :
    (write 0x4C 7 { State.reset with cfgLock := true }).map
      (fun t => (t.replies, readReg (.chan .distance .offset) t)) = some ([.write .ok], 7) := by decide
/-- V59 and V60. -/
theorem test_write_bias :
    (write 0x48 0x12345678 State.reset).map (readReg (.chan .distance .bias)) = some 0x00005678 ∧
    (write 0x48 0x0000FFFF State.reset).map (readReg (.chan .distance .bias)) = some 0xFFFFFFFF := by decide
/-- V61 and V62. -/
theorem test_write_raw_scale :
    (write 0x80 0x000001FF State.reset).map (readReg (.chan .pitch .raw)) = some 0x000000FF ∧
    (write 0x64 0xFFFF8000 State.reset).map (readReg (.chan .yaw .scale)) = some 0x00008000 := by decide
/-- V58: a write to OUT is refused and changes nothing. -/
theorem test_write_out :
    (write 0x5C 5 State.reset).map (fun t => (t.replies, readReg (.chan .distance .out) t, readReg .status t)) =
      some ([.write .err], 0, 0x00000008) := by decide
/-- V54: a 2-byte read. -/
theorem test_read_narrow :
    (after { State.reset with pending := [.hostRead 0x04 .two] }).map (fun t => (t.replies, readReg .status t)) =
      some ([.read 0 .err], 0x00000008) := by decide
/-- V55, V56, V57: misaligned, reserved and write-only offsets. -/
theorem test_read_refused :
    ∀ a ∈ [0x41, 0x0C, 0xA0, 0xE0, 0xFC, 0x00],
      (after { State.reset with pending := [.hostRead a .four] }).map (·.replies) = some [.read 0 .err] := by decide
/-- V63 and P1 row 13's offsets: MAX_D, MIN_Y, BANK7. -/
theorem test_read_default :
    (after { State.reset with pending := [.hostRead 0x54 .four] }).map (·.replies) = some [.read 0xCD .ok] ∧
    (after { State.reset with pending := [.hostRead 0x70 .four] }).map (·.replies) =
      some [.read 0xFFFFFFC4 .ok] ∧
    (after { State.reset with bank := #v[1, 2, 3, 4, 5, 6, 7, 0x50], pending := [.hostRead 0xDC .four] }).map
      (·.replies) = some [.read 0x50 .ok] := by decide
/-- R100's example: from rx_count = 13. -/
theorem test_rxPush :
    (after { received (v4.set 13 0) 13 with pending := [.rxPush 0x0D] }).map (fun t => (t.rxBuf, t.rxCount)) =
      some (v4, 14) := by decide
/-- R100's corner cases: the 15th byte is not stored, and 255 stays. -/
theorem test_rxPush_full :
    (after { received v4 14 with pending := [.rxPush 0xFF] }).map (fun t => (t.rxBuf, t.rxCount)) = some (v4, 15) ∧
    (after { received v4 255 with pending := [.rxPush 0xFF] }).map (·.rxCount) = some 255 := by decide
/-- V12 and V13's last byte. -/
theorem test_txTake :
    (after { State.reset with txPending := true, pending := [.txTake] }).map (fun t => (t.sent, readReg .status t)) =
      some ([0x52], 0x00000040) ∧
    (after { State.reset with txPending := true, txIdx := 3, pending := [.txTake] }).map
      (fun t => (t.sent, readReg .status t)) = some ([0x53], 0) := by decide
/-- V64: reset clears the lock. -/
theorem test_reset :
    (after { State.reset with cfgLock := true, sfLen := 9, pending := [.reset] }).map (readReg .status) = some 0 := by
  decide

/-- P2's rows 3, 7 and 12, and R91's RX, TX and RDW lines, as bus and port steps. -/
theorem test_program_lines :
    programSteps Params.default
      [.setOff .yaw (-4), .setRaw .distance 195, .command (.calval .yaw), .rx [1, 2], .tx 2, .rdw 4 .two, .reset] =
      some [.hostWrite 0x6C .four 0xFFFFFFFC, .hostWrite 0x40 .four 0x000000C3, .hostWrite 0x00 .four 0x00000106,
        .rxPush 1, .rxPush 2, .txTake, .txTake, .hostRead 4 .two, .reset] := by decide

/-! ## Witnesses: each claim's hypotheses are met -/

/-- The state right after reset with a schedule. -/
def ready (schedule : List AgentStep) : State := { State.reset with pending := schedule }

/-- A block at host address 0x1000. -/
def at1000 : Params := { Params.default with blockBase := 0x1000 }

/-- The largest denominators R7 allows. -/
def largest : Params := { denD := 655350, denY := 818, denP := 818, blockBase := 0, hosts := 1 }

theorem ready_ready (schedule : List AgentStep) : Ready (ready schedule) :=
  ⟨(by decide : Params.default.wf = true), rfl⟩

theorem witness_DecodeEncodeAgree : decode 0x104 = .ok (.cal .yaw) ∧ decode (encode .nop) = .ok .nop := by decide

theorem witness_IllegalWordsAreRule87 : decode 0x400 = .error .reservedBits := by decide

theorem witness_StepRunsWrittenCommand :
    let s := ready [.hostWrite 0 .four 0x106#32]
    Ready s ∧ s.pending = .hostWrite s.params.blockBase .four 0x106#32 :: [] ∧ decode 0x106 = .ok (.calval .yaw) ∧
      (∃ t, exec (.calval .yaw) { s with pending := [] } = .next t) ∧ (∃ t, exec .decode s = .next t) :=
  ⟨ready_ready _, rfl, by decide, ⟨_, rfl⟩, ⟨_, rfl⟩⟩

theorem witness_StepOfIllegalWordSetsOneBit :
    let s := ready [.hostWrite 0 .four 0xA#32, .txTake]
    Ready s ∧ s.pending = .hostWrite s.params.blockBase .four 0xA#32 :: [.txTake] ∧
      decode 0xA = .error .unassignedOpcode :=
  ⟨ready_ready _, rfl, by decide⟩

theorem witness_ResetStateIsRule39 : Params.default.wf = true ∧ largest.wf = true := by decide

theorem witness_ResetStepRestoresResetState :
    let s := ready [.reset]
    s.params.wf = true ∧ s.pending = .reset :: [] := ⟨by decide, rfl⟩

theorem witness_HostAccessBeforeResetRefused :
    let s := { ready [.hostRead 4 .four] with hasReset := false }
    s.params.wf = true ∧ s.hasReset = false ∧ s.pending = .hostRead 4 .four :: [] := ⟨by decide, rfl, rfl⟩

theorem witness_HostAccessBeforeResetRefused_write :
    let s := { ready [.hostWrite 0 .four 0] with hasReset := false }
    s.params.wf = true ∧ s.hasReset = false ∧ s.pending = .hostWrite 0 .four 0 :: [] := ⟨by decide, rfl, rfl⟩

theorem witness_BrokenConfigurationRefused :
    step { ready [] with params := { Params.default with hosts := 2 } } = .refused .badConfiguration := rfl

theorem witness_PseudoLinesStoreTheirValue :
    Ready (ready []) ∧ ((-32768 : Int) ≤ -32768 ∧ (-32768 : Int) ≤ 32767) ∧
      ((-32768 : Int) ≤ 32767 ∧ (32767 : Int) ≤ 32767) ∧ ((-32769 : Int) < -32768 ∨ (32767 : Int) < -32769) ∧
      ((32768 : Int) < -32768 ∨ (32767 : Int) < 32768) :=
  ⟨ready_ready _, by decide, by decide, by decide, by decide⟩

theorem witness_AccessCheckRule54 :
    accessCheck .write 0x44 .four { State.reset with cfgLock := true } = .error (.cfgLocked 0x44) ∧
    accessCheck .write 0x44 .two { State.reset with cfgLock := true } = .error (.busError 0x44) ∧
    accessCheck .write 0x45 .four { State.reset with cfgLock := true } = .error (.busError 0x45) ∧
    accessCheck .write 0x5C .four { State.reset with cfgLock := true } = .error (.busError 0x5C) ∧
    accessCheck .read 0x3C .four State.reset = .error (.busError 0x3C) ∧
    accessCheck .read 0x9C .four State.reset = .ok (.chan .pitch .out) := by decide

theorem witness_FailedAccessSetsOneBit :
    accessCheck .read 0x00 .four State.reset = .error (.busError 0x00) ∧
    accessCheck .write 0x04 .four State.reset = .error (.busError 0x04) ∧
    accessCheck .write 0x94 .four { State.reset with cfgLock := true } = .error (.cfgLocked 0x94) := by decide

theorem witness_ReadReturnsRegisterValue : Reg.status ≠ Reg.cmd ∧ Reg.bank 7 ≠ Reg.cmd := by decide

theorem witness_WriteStoresOneRegister :
    (ChanReg.offset ≠ ChanReg.out ∧
      (lockable (.chan .yaw .offset) = true → ({ State.reset with cfgLock := true } : State).cfgLock = false)) ∧
    (ChanReg.scale ≠ ChanReg.out ∧ (lockable (.chan .yaw .scale) = true → State.reset.cfgLock = false)) := by
  decide

theorem witness_LockRefusesConfigurationWrites :
    ({ State.reset with cfgLock := true } : State).cfgLock = true ∧
      (ChanReg.max = ChanReg.scale ∨ ChanReg.max = ChanReg.bias ∨ ChanReg.max = ChanReg.min ∨
        ChanReg.max = ChanReg.max) ∧
      (ChanReg.calv = ChanReg.offset ∨ ChanReg.calv = ChanReg.raw ∨ ChanReg.calv = ChanReg.calv) := by decide

theorem witness_AccessOutsideWindowRefused :
    let s := { ready [.hostRead 0xFFF .four] with params := at1000 }
    let t := { ready [.hostWrite 0x1100 .one 0] with params := at1000 }
    (Ready s ∧ 0xFFF < s.params.blockBase ∧ s.pending = .hostRead 0xFFF .four :: []) ∧
    (Ready t ∧ t.params.blockBase + 256 ≤ 0x1100 ∧ t.pending = .hostWrite 0x1100 .one 0 :: []) :=
  ⟨⟨⟨by decide, rfl⟩, by decide, rfl⟩, ⟨⟨by decide, rfl⟩, by decide, rfl⟩⟩

theorem witness_StepOfHostAccess :
    let s := { ready [.hostRead (0x1000 + 0xFF) .one] with params := at1000 }
    let t := { ready [.hostWrite (0x1000 + 0x4C) .four 5] with params := at1000 }
    (Ready s ∧ s.pending = .hostRead (s.params.blockBase + (0xFF : BitVec 8).toNat) .one :: []) ∧
    (Ready t ∧ t.pending = .hostWrite (t.params.blockBase + (0x4C : BitVec 8).toNat) .four 5 :: []) :=
  ⟨⟨⟨by decide, rfl⟩, rfl⟩, ⟨⟨by decide, rfl⟩, rfl⟩⟩

theorem witness_ReceivePushRule100 :
    let s := { ready [.rxPush 0xFF] with rxCount := 255 }
    Ready s ∧ s.pending = .rxPush 0xFF :: [] := ⟨⟨by decide, rfl⟩, rfl⟩

theorem witness_TransmitTakeRule104 :
    let s := { ready [.txTake] with txPending := true, txIdx := 3 }
    (Ready s ∧ s.pending = .txTake :: [] ∧ s.txPending = true ∧ s.txIdx = 3) ∧
    (({ s with txIdx := 0 } : State).txIdx ≠ 3) ∧
    (Ready (ready [.txTake]) ∧ (ready [.txTake]).txPending = false) :=
  ⟨⟨⟨by decide, rfl⟩, rfl, rfl, rfl⟩, by decide, ready_ready _, rfl⟩

theorem witness_BuildReqRule106 :
    State.reset.txPending = false ∧ ({ State.reset with txPending := true } : State).txPending = true := by decide

theorem witness_RequestLeavesInFrameOrder : Ready (ready []) ∧ (ready []).txPending = false := ⟨ready_ready _, rfl⟩

theorem witness_ParseRule108 : (received v4 14).rxCount = 14 ∧ (received v4 255).rxCount ≠ 14 := by decide

/-- Two frames that differ in bytes 0, 1 and 13. -/
theorem witness_HeaderAndTerminatorIgnored :
    let s := received v4 14
    let s' : State := { s with rxBuf := #v[9, 9, 2, 3, 4, 5, 6, 7, 8, 9, 10, 11, 12, 9] }
    s' = { s with rxBuf := s'.rxBuf } ∧ s' ≠ s ∧
      ∀ (k : Nat) (h : k < 14), k ≠ 0 → k ≠ 1 → k ≠ 13 → s'.rxBuf[k] = s.rxBuf[k] := by
  refine ⟨rfl, by decide, ?_⟩
  decide

/-- One byte delivered, and a second about to be; and a buffer of 14 about to be parsed. -/
theorem witness_FrameBufferHoldsDeliveredBytes :
    let s := { received (v4.set 0 7) 1 with pending := [.rxPush 8] }
    let d := { received v4 14 with pending := [.hostWrite 0 .four 0x7] }
    (HoldsReceived [7] s ∧ ∃ t, step s = .next t) ∧ (HoldsReceived v4.toList d ∧ ∃ t, step d = .next t) := by
  refine ⟨⟨⟨rfl, ?_⟩, _, rfl⟩, ⟨⟨rfl, ?_⟩, _, rfl⟩⟩
  · intro k h hb
    obtain rfl : k = 0 := by simpa using hb
    rfl
  · intro k h hb
    rfl

theorem witness_FrameBufferInEveryRun :
    Params.default.wf = true ∧ ∃ t, run 2 (startWith Params.default [.rxPush 7, .rxPush 8]) = .next t :=
  ⟨by decide, _, rfl⟩

/-- Stale bytes differ, and each of the three endings is met. -/
theorem witness_StaleReceiveBytesUnobservable :
    let s (schedule : List AgentStep) : State := { ready schedule with rxBuf := v4 }
    (∀ schedule, SameButUnreceived (ready schedule) (s schedule)) ∧ (ready []).rxBuf ≠ (s []).rxBuf ∧
      (∃ t, step (ready [.rxPush 5]) = .next t) ∧ step (ready [.txTake]) = .fault .transmitterHasNoStep ∧
      step (ready [.hostRead 256 .four]) = .refused .outsideTheWindow :=
  ⟨fun _ => ⟨rfl, fun k _ hk => absurd hk (Nat.not_lt_zero k)⟩, by decide, ⟨_, rfl⟩, rfl, rfl⟩

theorem witness_DefaultTransferFunctions : Params.default.wf = true ∧ largest.wf = true := by decide

theorem witness_CalibrationMonotone :
    (254 : Byte).toNat ≤ (254 : Byte).toNat ∧ (254 : Byte).toNat < (255 : Byte).toNat ∧ largest.wf = true :=
  ⟨Nat.le_refl _, Nat.lt_succ_self 254, by decide⟩

/-- At the bounds of S5: 0 and 205 are in range, −1 and 206 are not. -/
theorem witness_ValRule136 :
    let r (v : Word) := { State.reset.chan.get .distance with calv := v }
    ((r 0).min.toInt ≤ (r 0).calv.toInt ∧ (r 0).calv.toInt ≤ (r 0).max.toInt) ∧
    ((r 205).min.toInt ≤ (r 205).calv.toInt ∧ (r 205).calv.toInt ≤ (r 205).max.toInt) ∧
    ¬ ((r 206).min.toInt ≤ (r 206).calv.toInt ∧ (r 206).calv.toInt ≤ (r 206).max.toInt) ∧
    ¬ ((r (-1)).min.toInt ≤ (r (-1)).calv.toInt ∧ (r (-1)).calv.toInt ≤ (r (-1)).max.toInt) :=
  ⟨by decide, by decide, by decide, by decide⟩

/-- MIN > MAX (V34), MIN = MAX (V35), a 0 in range (V16), and the values just outside and at the upper bound. -/
theorem witness_ValCornersRule137 :
    let crossed := with1 .distance fun r => { r with min := 10, max := 5 }
    let single := with1 .distance fun r => { r with min := 42, max := 42 }
    (crossed.regs .distance).max.toInt < (crossed.regs .distance).min.toInt ∧
    (single.regs .distance).min = (single.regs .distance).max ∧
    ((State.reset.regs .distance).calv = 0 ∧ (State.reset.regs .distance).min.toInt ≤ 0 ∧
      0 ≤ (State.reset.regs .distance).max.toInt) ∧
    ((issue 0x005 (with1 .distance fun r => { r with calv := 206 })).map (·.oor.get .distance) = some true) ∧
    ((issue 0x005 (with1 .distance fun r => { r with calv := 205 })).map (·.oor.get .distance) = some false) := by
  decide

/-- V17 and V18: the codes 205 and 206. -/
theorem witness_CalvalRule140 :
    let r := State.reset.chan.get .distance
    (r.min.toInt ≤ (205#32).toInt ∧ (205#32).toInt ≤ r.max.toInt) ∧
    ¬ (r.min.toInt ≤ (206#32).toInt ∧ (206#32).toInt ≤ r.max.toInt) := by decide

theorem witness_CalvalAtDefaultsRule143 :
    let s := with1 .yaw fun r => { r with raw := 144, offset := -4, calv := 9, out := 9 }
    s.regs .yaw = { State.reset.regs .yaw with
      raw := (s.regs .yaw).raw, offset := -4, calv := (s.regs .yaw).calv, out := (s.regs .yaw).out } := by decide

theorem witness_ChannelCommandFrame :
    Instr.val .pitch = .cal .pitch ∨ Instr.val .pitch = .val .pitch ∨ Instr.val .pitch = .calval .pitch := by decide

theorem witness_NopRule161 : (0x0#32).toNat % 256 = 0 ∧ decode 0x0 = .ok .nop := by decide

theorem witness_DecodeRule163 :
    (received s1 14).rxCount = 14 ∧ (received s1 13).rxCount ≠ 14 ∧
    (issue 0x7 (received s1 14)).map (·.oor.get .distance) = some false ∧
    (issue 0x7 (received (s1.set 2 206) 14)).map (·.oor.get .distance) = some true := by decide

theorem witness_DecodeIsParseThenCalvals :
    let s := received s1 14
    s.rxCount = 14 ∧ [Channel.pitch, Channel.distance, Channel.yaw].Nodup ∧
      ∃ s0 s1 s2 s3, exec .parse s = .next s0 ∧ exec (.calval .pitch) s0 = .next s1 ∧
        exec (.calval .distance) s1 = .next s2 ∧ exec (.calval .yaw) s2 = .next s3 :=
  ⟨rfl, by decide, _, _, _, _, rfl, rfl, rfl, rfl⟩

theorem witness_LockCfgSetsLock : ({ State.reset with cfgLock := true } : State).cfgLock = true := rfl

theorem witness_CommandsWriteOnlyTheirRegisters : ∃ t, exec (.cal .yaw) State.reset = .next t := ⟨_, rfl⟩

/-- A step that is no reset, and the clauses' own premises: no command, each command the clauses name, a short frame and
a full one, an rx_push, the last tx_take. -/
theorem witness_StatusChangesOnlyAsListed :
    let s := { ready [.rxPush 1] with txPending := true, cfgLock := true }
    let d := ready [.hostWrite 0 .four 0x7]
    let x := { ready [.txTake] with txPending := true, txIdx := 3 }
    ((∃ t, step s = .next t) ∧ nextIsReset s = false ∧ nextCommand s = none ∧ nextWritesOut .yaw s = false ∧
      s.cfgLock = true) ∧
    ((∃ t, step d = .next t) ∧ nextIsReset d = false ∧ nextCommand d = some .decode) ∧
    (x.txPending = true ∧ (after x).map (·.txPending) = some false) ∧
    (∀ w ∈ [(0x1#32, Instr.buildReq), (0x2#32, .parse), (0x3#32, .rxClear), (0x8#32, .clrStatus), (0x9#32, .lockCfg)],
      nextCommand (ready [.hostWrite 0 .four w.1]) = some w.2) ∧
    (nextIsShortFrame { received v4 13 with pending := [.hostWrite 0 .four 0x2] } = true ∧
      nextIsShortFrame { received v4 14 with pending := [.hostWrite 0 .four 0x2] } = false) :=
  ⟨⟨⟨_, rfl⟩, rfl, rfl, by decide, rfl⟩, ⟨⟨_, rfl⟩, rfl, by decide⟩, by decide, by decide, by decide⟩

/-- Each ERR bit's own step: a short frame, an illegal word, a reserved offset, a locked register, an overrun. -/
theorem witness_StatusChangesOnlyAsListed_errors :
    nextIsShortFrame (ready [.hostWrite 0 .four 0x7]) = true ∧
    nextIsIllegal (ready [.hostWrite 0 .four 0xA]) = true ∧
    nextAccessError (ready [.hostRead 0xFC .four]) = some (.busError 0xFC) ∧
    nextAccessError { ready [.hostWrite 0x44 .four 2] with cfgLock := true } = some (.cfgLocked 0x44) ∧
    nextCommand { ready [.hostWrite 0 .four 0x1] with txPending := true } = some .buildReq := by decide

theorem witness_StickyErrorsAccumulate :
    let s := { ready [.hostWrite 0 .four 0x2] with errBus := true }
    (∃ t, step s = .next t) ∧ nextIsReset s = false ∧ nextCommand s ≠ some .clrStatus ∧ sticky 2 s = true :=
  ⟨⟨_, rfl⟩, rfl, by decide, rfl⟩

theorem witness_OneStepRaisesAtMostOneError :
    ((after (ready [.hostWrite 0 .four 0xA])).map (sticky 1) = some true ∧
      sticky 1 (ready [.hostWrite 0 .four 0xA]) = false) ∧
    (∃ t, step (ready [.reset]) = .next t) ∧ sticky 0 (ready [.reset]) = false :=
  ⟨by decide, ⟨_, rfl⟩, rfl⟩

theorem witness_LockedConfigurationIsImmutable :
    let s := { ready [.hostWrite 0x44 .four 2] with cfgLock := true }
    (∃ t, step s = .next t) ∧ s.cfgLock = true ∧ nextIsReset s = false := ⟨⟨_, rfl⟩, rfl, rfl⟩

/-- An OUT that is not 0 within its bounds, before a write that lowers MAX and before a VAL that writes OUT again. -/
theorem witness_OutIsSentinelOrWasInRange :
    let s := { with1 .distance (fun r => { r with calv := 206, out := 205 }) with
      pending := [.hostWrite 0x54 .four 100] }
    let v := { s with pending := [.hostWrite 0 .four 0x5] }
    (OutWithin .distance (0, 205) s ∧ nextWritesOut .distance s = false ∧ ∃ t, step s = .next t) ∧
    (OutWithin .distance (0, 205) v ∧ nextWritesOut .distance v = true ∧ ∃ t, step v = .next t) :=
  ⟨⟨.inr (by decide), by decide, _, rfl⟩, ⟨.inr (by decide), by decide, _, rfl⟩⟩

theorem witness_OutInEveryRun :
    Params.default.wf = true ∧
      ∃ t, run 2 (startWith Params.default [.hostWrite 0x40 .four 100, .hostWrite 0 .four 0x6]) = .next t ∧
        (t.regs .distance).out = 100 :=
  ⟨by decide, _, rfl, by decide⟩

theorem witness_StepKeepsInv :
    let s := { ready [.hostWrite 0 .four 0x1] with errShortFrame := true, sfLen := 10 }
    s.Inv ∧ ∃ t, step s = .next t :=
  ⟨⟨by decide, rfl, fun _ => rfl, by decide, fun h => by cases h⟩, _, rfl⟩

theorem witness_ResetMeetsInv : largest.wf = true := by decide

end Sys2Proof.Tests
end

section
/-! Proofs: the legal parameters as arithmetic, when a step is refused for them (00_scope.md R7, 60_exceptions.md
R198), and the calibrator right after reset (00_scope.md R10, 41_calibrator.md R130). -/

namespace Sys2Proof

/-- The parameter check as arithmetic (R7, R198). -/
theorem Params.wf_iff (p : Params) :
    p.wf = true ↔
      (0 < p.denD ∧ 10 ∣ p.denD ∧ p.denD / 10 ≤ 65535) ∧ (0 < p.denY ∧ 2 ∣ p.denY ∧ p.denY ≤ 818) ∧
      (0 < p.denP ∧ 2 ∣ p.denP ∧ p.denP ≤ 818) ∧ p.hosts = 1 := by
  simp [Params.wf, Nat.dvd_iff_mod_eq_zero, and_assoc]

end Sys2Proof

namespace Sys2Proof.Machine

/-! ### What refuses a step -/

/-- A write to CMD is never refused, whatever its word (R13, R181). -/
theorem executeCommand_completes (v : Word) (s : State) : ∃ t, executeCommand v s = .next t := by
  unfold executeCommand
  split
  · exact ⟨_, rfl⟩
  · exact exec_completes _ s

/-- Every write inside the window ends in a next state: a failed one is answered with ERR (R53). -/
theorem memWrite_completes (a : BitVec 8) (n : Size) (v : Word) (s : State) : ∃ t, memWrite a n v s = .next t := by
  unfold memWrite
  split
  · exact ⟨_, rfl⟩
  · obtain ⟨t, ht⟩ := executeCommand_completes v s
    exact ⟨answer (.write .ok) t, by rw [ht, answerOk]⟩
  · exact ⟨_, rfl⟩

/-- An agent's step is refused only for an address outside the window (R63, log 9). -/
theorem eq_outsideTheWindow_of_agentStep_refused {e : AgentStep} {s : State} {r : Refusal}
    (h : agentStep e s = .refused r) : r = .outsideTheWindow := by
  cases e with
  | rxPush b => cases h
  | reset => cases h
  | txTake =>
    simp only [agentStep, txTake] at h
    split at h <;> cases h
  | hostRead addr n =>
    simp only [agentStep] at h
    split at h <;> cases h
    rfl
  | hostWrite addr n v =>
    simp only [agentStep] at h
    split at h
    · cases h
      rfl
    · next a _ =>
      obtain ⟨t, ht⟩ := memWrite_completes a n v s
      rw [ht] at h
      cases h

/-- The parameter check comes first, and nothing after it refuses a step for its parameters. -/
theorem step_eq_badConfiguration_iff (s : State) :
    step s = .refused .badConfiguration ↔ ¬ s.params.wf = true := by
  unfold step stepSchedule
  by_cases hwf : s.params.wf = true
  · rw [if_pos hwf]
    refine iff_of_false (fun h => ?_) (not_not_intro hwf)
    split at h
    · cases h
    · split at h
      · cases eq_outsideTheWindow_of_agentStep_refused h
      · cases h
  · simp [hwf]

/-- Settles O9: the step's check is `Params.wf`, and `Params.wf` is R7's and R198's arithmetic. -/
theorem brokenConfigurationRefused : Obligations.BrokenConfigurationRefused := by
  intro s
  rw [step_eq_badConfiguration_iff, Params.wf_iff]

/-! ### The calibrator at the default configuration -/

@[simp] theorem regs_resetWith (p : Params) (c : Channel) : (State.resetWith p).regs c = resetRegs p c := by
  cases c <;> rfl

/-- R29's SCALE of distance, DEN_D / 10, is exact and fits its register. -/
theorem defaultScale_distance {p : Params} (h : p.wf = true) :
    (defaultScale p .distance).toNat * 10 = p.denD := by
  obtain ⟨⟨-, hdvd, hle⟩, -⟩ := p.wf_iff.mp h
  simp only [defaultScale, BitVec.toNat_ofNat]
  omega

/-- R29's SCALE of an angle, DEN / 2, is exact and fits its register. -/
theorem halfDen_toNat {d : Nat} (hdvd : 2 ∣ d) (hle : d ≤ 818) : (BitVec.ofNat 16 (d / 2)).toNat * 2 = d := by
  rw [BitVec.toNat_ofNat]
  omega

/-- R29's BIAS of an angle, −40·DEN, fits its register: this is what bounds DEN by 818 (R7). -/
theorem minusFortyDen_toInt {d : Nat} (hle : d ≤ 818) : (BitVec.ofInt 16 (-40 * d)).toInt = -40 * d := by
  rw [BitVec.toInt_ofInt, Int.bmod_eq_of_le] <;> omega

/-- The physical value of a code over DEN = d, when SCALE is d/k and BIAS is b·d (R10, R130). -/
theorem calib_div_den (r : ChanRegs) {d k : Nat} {b : Int} (hd : 0 < d)
    (hscale : r.scale.toNat * k = d) (hbias : r.bias.toInt = b * d) :
    (calib r : ℚ) / d = (r.raw.toNat : ℚ) / k + b + (r.offset.toInt : ℚ) / d := by
  have hk : k ≠ 0 := by
    rintro rfl
    omega
  have hk' : (k : ℚ) ≠ 0 := by exact_mod_cast hk
  have hd' : (d : ℚ) ≠ 0 := by exact_mod_cast hd.ne'
  have hscale' : (r.scale.toNat : ℚ) * k = d := by exact_mod_cast hscale
  unfold calib
  push_cast [hbias]
  field_simp
  rw [← hscale']
  ring

/-- An angle's transfer function at R29's default SCALE and BIAS (R10). -/
theorem calib_div_den_angle (r : ChanRegs) {d : Nat} (hd : 0 < d) (hdvd : 2 ∣ d) (hle : d ≤ 818)
    (hscale : r.scale = BitVec.ofNat 16 (d / 2)) (hbias : r.bias = BitVec.ofInt 16 (-40 * d)) :
    (calib r : ℚ) / d = (r.raw.toNat : ℚ) / 2 - 40 + (r.offset.toInt : ℚ) / d := by
  have h := calib_div_den r hd (hscale ▸ halfDen_toNat hdvd hle) (hbias ▸ minusFortyDen_toInt hle)
  rw [h]
  push_cast
  ring

/-- Settles O31: the default SCALE and BIAS are DEN/10 and 0 for distance, DEN/2 and −40·DEN for an angle. -/
theorem defaultTransferFunctions : Obligations.DefaultTransferFunctions := by
  intro p raw off hwf
  obtain ⟨⟨hD, -⟩, ⟨hY, hYdvd, hYle⟩, ⟨hP, hPdvd, hPle⟩, -⟩ := p.wf_iff.mp hwf
  simp only [regs_resetWith]
  refine ⟨?_, ?_, ?_⟩
  · have h := calib_div_den { resetRegs p .distance with raw := raw, offset := off } (b := 0) hD
      (defaultScale_distance hwf) (by simp [resetRegs, defaultBias])
    simpa using h
  · exact calib_div_den_angle _ hY hYdvd hYle rfl rfl
  · exact calib_div_den_angle _ hP hPdvd hPle rfl rfl

end Sys2Proof.Machine
end

section
/-! Proofs: what rx_buf holds beyond the received bytes cannot be observed (10_state.md R34). -/

namespace Sys2Proof.Machine

theorem SameButUnreceived.refl (s : State) : SameButUnreceived s s := ⟨rfl, fun _ _ _ => rfl⟩

/-- Once 14 bytes are received no byte of rx_buf is stale, and the relation is equality. -/
theorem SameButUnreceived.eq_of_full {s s' : State} (h : SameButUnreceived s s') (hfull : 14 ≤ s.rxCount.toNat) :
    s' = s := by
  obtain ⟨heq, hagree⟩ := h
  have hbuf : s'.rxBuf = s.rxBuf := Vector.ext fun k hk => hagree k hk (by omega)
  rw [heq, hbuf]

/-- An operation that does not look at rx_buf, keeps it, and receives no byte keeps the relation. -/
theorem SameButUnreceived.map (f : State → State) {s s' : State} (h : SameButUnreceived s s')
    (hcomm : ∀ b, f { s with rxBuf := b } = { f s with rxBuf := b })
    (hbuf : (f s).rxBuf = s.rxBuf) (hcount : (f s).rxCount.toNat ≤ s.rxCount.toNat) :
    SameButUnreceived (f s) (f s') := by
  obtain ⟨heq, hagree⟩ := h
  have hf : f s' = { f s with rxBuf := s'.rxBuf } := (congrArg f heq).trans (hcomm _)
  refine ⟨by rw [hf], fun k hk hlt => ?_⟩
  rw [hf, hbuf]
  exact hagree k hk (hlt.trans_le hcount)

/-- `map` for an operation that keeps rx_count as well. -/
theorem SameButUnreceived.map_same_count (f : State → State) {s s' : State} (h : SameButUnreceived s s')
    (hcomm : ∀ b, f { s with rxBuf := b } = { f s with rxBuf := b })
    (hbuf : (f s).rxBuf = s.rxBuf) (hcount : (f s).rxCount = s.rxCount) :
    SameButUnreceived (f s) (f s') :=
  h.map f hcomm hbuf (by rw [hcount])

/-! ### The operations keep the relation -/

theorem SameButUnreceived.answer {s s' : State} (h : SameButUnreceived s s') (x : HostReply) :
    SameButUnreceived (answer x s) (answer x s') :=
  h.map_same_count (Machine.answer x) (fun _ => rfl) rfl rfl

theorem SameButUnreceived.raise {s s' : State} (h : SameButUnreceived s s') (e : Error) :
    SameButUnreceived (raise e s) (raise e s') :=
  h.map_same_count (Machine.raise e) (fun _ => by cases e <;> rfl) (raise_rxBuf s e) (raise_rxCount s e)

theorem SameButUnreceived.storeReg {s s' : State} (h : SameButUnreceived s s') (r : Reg) (v : Word) :
    SameButUnreceived (storeReg r v s) (storeReg r v s') :=
  h.map_same_count (Machine.storeReg r v) (fun _ => by cases r <;> rfl) (by cases r <;> rfl) (by cases r <;> rfl)

theorem SameButUnreceived.validate {s s' : State} (h : SameButUnreceived s s') (c : Channel) :
    SameButUnreceived (validate c s) (validate c s') :=
  h.map_same_count (Machine.validate c) (fun _ => by rw [validate_eq, validate_eq]; rfl)
    (by rw [validate_eq]) (by rw [validate_eq])

theorem SameButUnreceived.calibrate {s s' : State} (h : SameButUnreceived s s') (c : Channel) :
    SameButUnreceived (calibrate c s) (calibrate c s') :=
  h.map_same_count (Machine.calibrate c) (fun _ => rfl) rfl rfl

theorem SameButUnreceived.takeByte {s s' : State} (h : SameButUnreceived s s') :
    SameButUnreceived (takeByte s) (takeByte s') :=
  h.map_same_count Machine.takeByte (fun _ => by rw [takeByte_eq, takeByte_eq])
    (by rw [takeByte_eq]) (by rw [takeByte_eq])

/-- Of a short frame PARSE uses the length only (R108, R109). -/
theorem SameButUnreceived.parseFrame {s s' : State} (h : SameButUnreceived s s') :
    SameButUnreceived (parseFrame s) (parseFrame s') := by
  by_cases hn : s.rxCount = 14
  · rw [h.eq_of_full (by simp [hn])]
    exact .refl _
  · refine h.map Machine.parseFrame (fun b => ?_) ?_ ?_
    · rw [parseFrame_short hn, parseFrame_short (s := { s with rxBuf := b }) hn]
    · rw [parseFrame_short hn]
    · rw [parseFrame_short hn]
      exact Nat.zero_le _

/-- The byte pushed is stored at the place that thereby counts as received (R100). -/
theorem SameButUnreceived.rxPush {s s' : State} (h : SameButUnreceived s s') (b : Byte) :
    SameButUnreceived (rxPush b s) (rxPush b s') := by
  obtain ⟨heq, hagree⟩ := h
  have hcount : s'.rxCount = s.rxCount := by rw [heq]
  refine ⟨?_, fun k hk hlt => ?_⟩
  · generalize s'.rxBuf = buf at heq
    subst heq
    rfl
  · simp only [Machine.rxPush, countByte_toNat] at hlt
    simp only [Machine.rxPush, storeByte_getElem, hcount]
    split
    · rfl
    · exact hagree k hk (by omega)

/-- Reset leaves nothing of rx_buf (R210). -/
theorem SameButUnreceived.resetBlock_eq {s s' : State} (h : SameButUnreceived s s') : resetBlock s' = resetBlock s := by
  rw [h.1]
  rfl

/-! ### What a step looks at is the same in both states -/

section
variable {s s' : State}

theorem SameButUnreceived.params_eq (h : SameButUnreceived s s') : s'.params = s.params := by rw [h.1]
theorem SameButUnreceived.hasReset_eq (h : SameButUnreceived s s') : s'.hasReset = s.hasReset := by rw [h.1]
theorem SameButUnreceived.pending_eq (h : SameButUnreceived s s') : s'.pending = s.pending := by rw [h.1]
theorem SameButUnreceived.txPending_eq (h : SameButUnreceived s s') : s'.txPending = s.txPending := by rw [h.1]

theorem SameButUnreceived.accessCheck_eq (h : SameButUnreceived s s') (dir : Dir) (a : BitVec 8) (n : Size) :
    accessCheck dir a n s' = accessCheck dir a n s := by
  rw [h.1]
  rfl

/-- No register shows a byte of rx_buf (R34). -/
theorem SameButUnreceived.readReg_eq (h : SameButUnreceived s s') (r : Reg) : readReg r s' = readReg r s := by
  rw [h.1]
  cases r <;> rfl

end

/-! ### Two endings -/

/-- Two steps end alike: in related states, in the same fault, or in the same refusal. -/
inductive EndsAlike : Host.Outcome State Fault Refusal → Host.Outcome State Fault Refusal → Prop where
  | next {t t' : State} (h : SameButUnreceived t t') : EndsAlike (.next t) (.next t')
  | fault (f : Fault) : EndsAlike (.fault f) (.fault f)
  | refused (r : Refusal) : EndsAlike (.refused r) (.refused r)

theorem exec_endsAlike {s s' : State} (h : SameButUnreceived s s') (i : Instr) :
    EndsAlike (exec i s) (exec i s') := by
  cases i with
  | nop => exact .next h
  | buildReq =>
    simp only [exec, execBuildReq, h.txPending_eq]
    split
    · exact .next (h.raise .txOverrun)
    · exact .next (h.map_same_count (fun u => { u with txPending := true, txIdx := 0 }) (fun _ => rfl) rfl rfl)
  | parse => exact .next h.parseFrame
  | rxClear => exact .next (h.map clearRx (fun _ => rfl) rfl (Nat.zero_le _))
  | cal c => exact .next (h.calibrate c)
  | val c => exact .next (h.validate c)
  | calval c => exact .next ((h.calibrate c).validate c)
  | decode =>
    have hparse := h.parseFrame
    have hok : (parseFrame s').frameOk = (parseFrame s).frameOk := by rw [hparse.1]
    simp only [exec, execDecode, hok]
    split
    · exact .next ((((((hparse.calibrate .distance).validate .distance).calibrate .yaw).validate .yaw).calibrate
        .pitch).validate .pitch)
    · exact .next hparse
  | clrStatus => exact .next (h.map_same_count clearErrors (fun _ => rfl) rfl rfl)
  | lockCfg => exact .next (h.map_same_count (fun u => { u with cfgLock := true }) (fun _ => rfl) rfl rfl)

theorem executeCommand_endsAlike {s s' : State} (h : SameButUnreceived s s') (v : Word) :
    EndsAlike (executeCommand v s) (executeCommand v s') := by
  unfold executeCommand
  split
  · exact .next (h.raise _)
  · exact exec_endsAlike h _

theorem EndsAlike.answerOk {o o' : Host.Outcome State Fault Refusal} (h : EndsAlike o o') :
    EndsAlike (answerOk o) (answerOk o') := by
  cases h with
  | next h => exact .next (h.answer _)
  | fault f => exact .fault f
  | refused r => exact .refused r

theorem memRead_sameButUnreceived {s s' : State} (h : SameButUnreceived s s') (a : BitVec 8) (n : Size) :
    SameButUnreceived (memRead a n s) (memRead a n s') := by
  unfold memRead
  rw [h.accessCheck_eq]
  split
  · exact (h.raise _).answer _
  · rw [h.readReg_eq]
    exact h.answer _

theorem memWrite_endsAlike {s s' : State} (h : SameButUnreceived s s') (a : BitVec 8) (n : Size) (v : Word) :
    EndsAlike (memWrite a n v s) (memWrite a n v s') := by
  unfold memWrite
  rw [h.accessCheck_eq]
  split
  · exact .next ((h.raise _).answer _)
  · exact (executeCommand_endsAlike h v).answerOk
  · exact .next ((h.storeReg _ v).answer _)

theorem agentStep_endsAlike {s s' : State} (h : SameButUnreceived s s') (e : AgentStep) :
    EndsAlike (agentStep e s) (agentStep e s') := by
  cases e with
  | hostRead addr n =>
    simp only [agentStep, h.params_eq]
    split
    · exact .refused _
    · exact .next (memRead_sameButUnreceived h _ n)
  | hostWrite addr n v =>
    simp only [agentStep, h.params_eq]
    split
    · exact .refused _
    · exact memWrite_endsAlike h _ n v
  | rxPush b => exact .next (h.rxPush b)
  | txTake =>
    simp only [agentStep, txTake, h.txPending_eq]
    split
    · exact .next h.takeByte
    · exact .fault _
  | reset =>
    simp only [agentStep, h.resetBlock_eq]
    exact .next (.refl _)

theorem step_endsAlike {s s' : State} (h : SameButUnreceived s s') : EndsAlike (step s) (step s') := by
  have hrest (rest : List AgentStep) :
      SameButUnreceived { s with pending := rest } { s' with pending := rest } :=
    h.map_same_count (fun u => { u with pending := rest }) (fun _ => rfl) rfl rfl
  unfold step stepSchedule
  simp only [h.params_eq, h.pending_eq, h.hasReset_eq] at hrest ⊢
  split
  · split
    · exact .next h
    · split
      · exact agentStep_endsAlike (hrest _) _
      · exact .refused _
  · exact .refused _

/-- The relation as the claim states it, from the first step's ending to the second's. -/
theorem EndsAlike.spec {o o' : Host.Outcome State Fault Refusal} (h : EndsAlike o o') :
    (∀ t, o = .next t → ∃ t', o' = .next t' ∧ SameButUnreceived t t') ∧
    (∀ f, o = .fault f → o' = .fault f) ∧ (∀ r, o = .refused r → o' = .refused r) := by
  cases h with
  | next ht =>
    refine ⟨?_, fun _ hf => (nomatch hf), fun _ hr => (nomatch hr)⟩
    rintro _ ⟨⟩
    exact ⟨_, rfl, ht⟩
  | fault f => exact ⟨fun _ ht => (nomatch ht), fun _ hf => hf, fun _ hr => (nomatch hr)⟩
  | refused r => exact ⟨fun _ ht => (nomatch ht), fun _ hf => (nomatch hf), fun _ hr => hr⟩

/-- Settles O29: every operation keeps the relation, and a frame is read only once its 14 bytes are received. -/
theorem staleReceiveBytesUnobservable : Obligations.StaleReceiveBytesUnobservable :=
  fun _ _ h => (step_endsAlike h).spec

end Sys2Proof.Machine
end

section
/-! Proofs: which commands write which data registers (10_state.md R22), and OUT is the sentinel or was in range when it
was written (R41). -/

namespace Sys2Proof.Machine

/-! ### The channels' registers after each operation -/

/-- PARSE writes RAW of a channel and no other register of it (R108). -/
theorem regs_parseFrame (s : State) (c : Channel) :
    (parseFrame s).regs c = { s.regs c with raw := ((parseFrame s).regs c).raw } := by
  by_cases hn : s.rxCount = 14
  · rw [parseFrame_good hn]
    cases c <;> rfl
  · rw [parseFrame_short hn]
    cases c <;> rfl

@[simp] theorem regs_calibrate_same (s : State) (c : Channel) :
    (calibrate c s).regs c = { s.regs c with calv := BitVec.ofInt 32 (calib (s.regs c)) } :=
  regs_setRegs_same _ _ _

@[simp] theorem regs_calibrate_ne (s : State) {c d : Channel} (h : d ≠ c) : (calibrate c s).regs d = s.regs d :=
  regs_setRegs_ne _ _ h

@[simp] theorem regs_validate_same (s : State) (c : Channel) :
    (validate c s).regs c = { s.regs c with
      out := if inRange (s.regs c) (s.regs c).calv.toInt then (s.regs c).calv else 0 } := by
  rw [validate_eq]
  exact PerChannel.get_set_same _ _ _

@[simp] theorem regs_validate_ne (s : State) {c d : Channel} (h : d ≠ c) : (validate c s).regs d = s.regs d := by
  rw [validate_eq]
  exact PerChannel.get_set_ne _ _ h

/-! ### What a command writes -/

/-- From r to r' the command i may have brought a channel c: R22's "written by commands" column. -/
structure WritesAsListed (i : Instr) (c : Channel) (r r' : ChanRegs) : Prop where
  scale : r'.scale = r.scale
  bias : r'.bias = r.bias
  offset : r'.offset = r.offset
  min : r'.min = r.min
  max : r'.max = r.max
  raw : i ≠ .parse → i ≠ .decode → r'.raw = r.raw
  calv : i ≠ .cal c → i ≠ .calval c → i ≠ .decode → r'.calv = r.calv
  out : i ≠ .val c → i ≠ .calval c → i ≠ .decode → r'.out = r.out

theorem WritesAsListed.of_eq (i : Instr) (c : Channel) {r r' : ChanRegs} (h : r' = r) : WritesAsListed i c r r' := by
  subst h
  exact ⟨rfl, rfl, rfl, rfl, rfl, fun _ _ => rfl, fun _ _ _ => rfl, fun _ _ _ => rfl⟩

theorem exec_writesAsListed {i : Instr} {s t : State} (h : exec i s = .next t) (c : Channel) :
    WritesAsListed i c (s.regs c) (t.regs c) := by
  cases i with
  | nop | rxClear | clrStatus | lockCfg =>
    cases h
    exact .of_eq _ c rfl
  | buildReq =>
    simp only [exec, execBuildReq] at h
    split at h <;> cases h <;> exact .of_eq _ c rfl
  | parse =>
    cases h
    rw [regs_parseFrame]
    constructor <;> simp
  | cal d =>
    cases h
    by_cases hcd : c = d
    · subst hcd
      constructor <;> simp
    · exact .of_eq _ c (regs_calibrate_ne s hcd)
  | val d =>
    cases h
    by_cases hcd : c = d
    · subst hcd
      constructor <;> simp
    · exact .of_eq _ c (regs_validate_ne s hcd)
  | calval d =>
    cases h
    by_cases hcd : c = d
    · subst hcd
      constructor <;> simp
    · exact .of_eq _ c ((regs_validate_ne _ hcd).trans (regs_calibrate_ne s hcd))
  | decode =>
    by_cases hn : s.rxCount = 14
    · obtain rfl := Host.Outcome.next.inj ((exec_decode_good hn).symm.trans h)
      rw [(calvalAll_channel _ c).1, regs_parseFrame]
      constructor <;> simp
    · rw [exec_decode_short hn] at h
      cases h
      exact .of_eq _ c rfl

/-- Only a parsed frame reaches BANK (R31). -/
theorem exec_keeps_bank {i : Instr} {s t : State} (h : exec i s = .next t) (hparse : i ≠ .parse)
    (hdecode : i ≠ .decode) : t.bank = s.bank := by
  cases i with
  | parse => exact absurd rfl hparse
  | decode => exact absurd rfl hdecode
  | nop | rxClear | cal | clrStatus | lockCfg =>
    cases h
    rfl
  | buildReq =>
    simp only [exec, execBuildReq] at h
    split at h <;> cases h <;> rfl
  | val c =>
    cases h
    rw [validate_eq]
  | calval c =>
    cases h
    rw [calval_eq]

/-- Settles O43: the column of R22, command by command. -/
theorem commandsWriteOnlyTheirRegisters : Obligations.CommandsWriteOnlyTheirRegisters := by
  intro i s t h
  refine ⟨fun c => ?_, exec_keeps_bank h⟩
  obtain ⟨hscale, hbias, hoffset, hmin, hmax, hraw, hcalv, hout⟩ := exec_writesAsListed h c
  exact ⟨hscale, hbias, hoffset, hmin, hmax, hraw, hcalv, hout⟩

/-! ### The two kinds of step that write OUT -/

/-- A step whose command is i runs it and records the reply OK (R160); its word is legal and its access in order. -/
theorem Takes.of_nextCommand {s t : State} {i : Instr} (h : Takes s t) (hc : nextCommand s = some i) :
    ∃ rest u, exec i { s with pending := rest } = .next u ∧ t = { u with replies := u.replies ++ [.write .ok] } ∧
      nextIsIllegal s = false ∧ nextAccessError s = none := by
  cases h with
  | command j u addr v rest hp hj hi he hx =>
    cases hj.symm.trans hc
    exact ⟨rest, u, hx, rfl, hi, he⟩
  | writeBusError _ _ _ _ _ _ hno | writeLocked _ _ _ _ _ _ hno | store _ _ _ _ _ _ hno | illegal _ _ _ _ hno =>
    cases hno.symm.trans hc
  | idle hp | readOk _ _ _ _ hp | readErr _ _ _ _ hp | rx _ _ hp | tx _ hp | reset _ hp =>
    simp [nextCommand, hp] at hc

/-- A step of the reset agent is a reset (R210). -/
theorem Takes.of_nextIsReset {s t : State} (h : Takes s t) (hr : nextIsReset s = true) :
    ∃ rest, t = resetBlock { s with pending := rest } := by
  cases h with
  | reset rest => exact ⟨rest, rfl⟩
  | idle hp | readOk _ _ _ _ hp | readErr _ _ _ _ hp | writeBusError _ _ _ _ _ hp | writeLocked _ _ _ _ _ hp
  | store _ _ _ _ _ hp | illegal _ _ _ hp | command _ _ _ _ _ hp | rx _ _ hp | tx _ hp =>
    simp [nextIsReset, hp] at hr

/-! ### OUT -/

/-- The command i, given in s, writes OUT(c) (R22, R163). -/
def CommandWritesOut (c : Channel) (i : Instr) (s : State) : Prop :=
  i = .val c ∨ i = .calval c ∨ (i = .decode ∧ s.rxCount = 14)

theorem nextWritesOut_iff (c : Channel) (s : State) :
    nextWritesOut c s = true ↔ nextIsReset s = true ∨ ∃ i, nextCommand s = some i ∧ CommandWritesOut c i s := by
  simp only [nextWritesOut, CommandWritesOut, Bool.or_eq_true, Bool.and_eq_true, beq_iff_eq]
  grind

/-- OUT(c) is the sentinel or within MIN(c) and MAX(c) as they stand. -/
def OutInOwnRange (c : Channel) (s : State) : Prop := OutWithin c ((s.regs c).min, (s.regs c).max) s

theorem OutWithin.of_out_eq {c : Channel} {b : Word × Word} {s t : State} (h : OutWithin c b s)
    (hout : (t.regs c).out = (s.regs c).out) : OutWithin c b t := by
  rwa [OutWithin, hout]

theorem OutInOwnRange.of_regs_eq {c : Channel} {s t : State} (h : OutInOwnRange c s) (hregs : t.regs c = s.regs c) :
    OutInOwnRange c t := by
  rwa [OutInOwnRange, OutWithin, hregs]

/-- VAL leaves a value it has checked, or the sentinel (R136). -/
theorem validate_outInOwnRange (c : Channel) (s : State) : OutInOwnRange c (validate c s) := by
  simp only [OutInOwnRange, OutWithin, regs_validate_same]
  by_cases hin : inRange (s.regs c) (s.regs c).calv.toInt = true
  · rw [if_pos hin]
    exact .inr ((inRange_iff _ _).mp hin)
  · rw [if_neg hin]
    exact .inl rfl

/-- On each channel DECODE's calibration ends in the registers the channel's own CALVAL leaves (R164 (a)). -/
theorem regs_calvalAll (s : State) (c : Channel) :
    (calvalAll s).regs c = (validate c (calibrate c s)).regs c := by
  rw [(calvalAll_channel s c).1, calval_eq]
  exact (PerChannel.get_set_same _ _ _).symm

theorem exec_outInOwnRange {c : Channel} {i : Instr} {s t : State} (h : exec i s = .next t)
    (hw : CommandWritesOut c i s) : OutInOwnRange c t := by
  obtain rfl | rfl | ⟨rfl, hn⟩ := hw
  · cases h
    exact validate_outInOwnRange c s
  · cases h
    exact validate_outInOwnRange c _
  · obtain rfl := Host.Outcome.next.inj ((exec_decode_good hn).symm.trans h)
    exact (validate_outInOwnRange c _).of_regs_eq (regs_calvalAll _ c)

theorem exec_keeps_out {c : Channel} {i : Instr} {s t : State} (h : exec i s = .next t)
    (hw : ¬ CommandWritesOut c i s) : (t.regs c).out = (s.regs c).out := by
  simp only [CommandWritesOut, not_or, not_and] at hw
  obtain ⟨hval, hcalval, hdecode⟩ := hw
  by_cases hi : i = .decode
  · subst hi
    rw [exec_decode_short (hdecode rfl)] at h
    cases h
    rfl
  · exact (exec_writesAsListed h c).out hval hcalval hi

theorem regs_resetBlock (s : State) (c : Channel) : (resetBlock s).regs c = resetRegs s.params c := by
  cases c <;> rfl

/-- The host cannot write OUT (R55). -/
theorem storeChanReg_out (r : ChanRegs) (k : ChanReg) (v : Word) : (storeChanReg r k v).out = r.out := by
  cases k <;> rfl

theorem Takes.outInOwnRange {c : Channel} {s t : State} (h : Takes s t) (hw : nextWritesOut c s = true) :
    OutInOwnRange c t := by
  obtain hr | ⟨i, hc, hi⟩ := (nextWritesOut_iff c s).mp hw
  · obtain ⟨rest, rfl⟩ := h.of_nextIsReset hr
    exact .inl (by rw [regs_resetBlock]; rfl)
  · obtain ⟨rest, u, hx, rfl, -, -⟩ := h.of_nextCommand hc
    exact (exec_outInOwnRange hx hi).of_regs_eq rfl

theorem Takes.keeps_out {c : Channel} {s t : State} (h : Takes s t) (hw : nextWritesOut c s = false) :
    (t.regs c).out = (s.regs c).out := by
  have hno := mt (nextWritesOut_iff c s).mpr (by simp [hw])
  push Not at hno
  obtain ⟨hr, hi⟩ := hno
  cases h with
  | idle | readOk | readErr | writeBusError | writeLocked | illegal | rx => rfl
  | tx => rw [takeByte_eq]; rfl
  | reset rest hp => exact absurd (by simp [nextIsReset, hp]) hr
  | store d k addr v rest hp =>
    by_cases hcd : c = d
    · subst hcd
      simp [State.regs, storeChanReg_out]
    · simp [State.regs, PerChannel.get_set_ne _ _ hcd]
  | command i u addr v rest hp hc _ _ hx =>
    calc (u.regs c).out = (({ s with pending := rest } : State).regs c).out := exec_keeps_out hx (hi i hc)
      _ = (s.regs c).out := rfl

/-- R41's step: a step that writes OUT(c) leaves it within the bounds in force, any other leaves it alone. -/
theorem step_outWithin {c : Channel} {b : Word × Word} {s t : State} (hb : OutWithin c b s)
    (h : step s = .next t) : OutWithin c (boundsAfter c b s t) t := by
  unfold boundsAfter
  by_cases hw : nextWritesOut c s = true
  · rw [if_pos hw]
    exact (step_takes h).outInOwnRange hw
  · rw [if_neg hw]
    exact hb.of_out_eq ((step_takes h).keeps_out (by simpa using hw))

theorem resetWith_outWithin (p : Params) (c : Channel) (b : Word × Word) : OutWithin c b (State.resetWith p) :=
  .inl (by rw [regs_resetWith]; rfl)

/-- Settles O48: OUT is written by the range check and by reset only. -/
theorem outIsSentinelOrWasInRange : Obligations.OutIsSentinelOrWasInRange :=
  ⟨fun _ _ _ _ => step_outWithin, resetWith_outWithin⟩

/-- R41 along a run, the bounds followed step by step. -/
theorem run_outWithin {c : Channel} {k : Nat} {b : Word × Word} {s t : State} (hb : OutWithin c b s)
    (h : run k s = .next t) : OutWithin c (boundsAtLastWrite c k s b) t := by
  induction k generalizing s b with
  | zero =>
    cases h
    exact hb
  | succ k ih =>
    unfold run at h
    unfold boundsAtLastWrite
    split at h
    · next u hu => exact ih (step_outWithin hb hu) h
    · next hstop => exact absurd h (hstop t)

/-- Settles O52: the step lemma of O48, run from the state after reset. -/
theorem outInEveryRun : Obligations.OutInEveryRun :=
  fun p _ _ _ c _ h => run_outWithin ((resetWith_outWithin p c _).of_out_eq rfl) h

end Sys2Proof.Machine
end

section
/-! Proofs: every field of STATUS is set and cleared only where its table lists it (10_state.md R32). -/

namespace Sys2Proof.Machine

/-! ### Commands -/

/-- The command i, given in s, parses a frame of a length other than 14 (R108, R163). -/
def CommandIsShortFrame (i : Instr) (s : State) : Prop := (i = .parse ∨ i = .decode) ∧ s.rxCount ≠ 14

/-- What the command i leaves in the fields of STATUS, from s to t: R32's table, read by command. -/
structure StatusAfterCommand (i : Instr) (s t : State) : Prop where
  frameOk_kept : i ≠ .parse → i ≠ .decode → t.frameOk = s.frameOk
  frameOk_parsed : i = .parse ∨ i = .decode → t.frameOk = decide (s.rxCount = 14)
  errShortFrame : i ≠ .clrStatus → (t.errShortFrame = true ↔ s.errShortFrame = true ∨ CommandIsShortFrame i s)
  errIllegalCmd : i ≠ .clrStatus → t.errIllegalCmd = s.errIllegalCmd
  errBus : i ≠ .clrStatus → t.errBus = s.errBus
  errCfgLocked : i ≠ .clrStatus → t.errCfgLocked = s.errCfgLocked
  errTxOverrun : i ≠ .clrStatus →
    (t.errTxOverrun = true ↔ s.errTxOverrun = true ∨ (i = .buildReq ∧ s.txPending = true))
  cleared : i = .clrStatus → (∀ k, sticky k t = false) ∧ t.sfLen = 0
  txPending_kept : i ≠ .buildReq → t.txPending = s.txPending
  txPending_armed : i = .buildReq → t.txPending = true
  cfgLock_kept : i ≠ .lockCfg → t.cfgLock = s.cfgLock
  cfgLock_set : i = .lockCfg → t.cfgLock = true
  oor : ∀ c, ¬ CommandWritesOut c i s → t.oor.get c = s.oor.get c
  sfLen_short : CommandIsShortFrame i s → t.sfLen = s.rxCount
  sfLen_kept : ¬ CommandIsShortFrame i s → i ≠ .clrStatus → t.sfLen = s.sfLen
  rxCount_kept : i ≠ .parse → i ≠ .decode → i ≠ .rxClear → t.rxCount = s.rxCount
  rxCount_cleared : i = .parse ∨ i = .decode ∨ i = .rxClear → t.rxCount = 0

theorem sticky_clearErrors (s : State) (k : Fin 5) : sticky k (clearErrors s) = false := by fin_cases k <;> rfl

theorem exec_statusAfterCommand {i : Instr} {s t : State} (h : exec i s = .next t) : StatusAfterCommand i s t := by
  cases i with
  | nop | rxClear | cal | lockCfg =>
    cases h
    constructor <;> simp [CommandIsShortFrame, calibrate]
  | clrStatus =>
    cases h
    constructor <;> simp [CommandIsShortFrame, sticky_clearErrors]
  | buildReq =>
    simp only [exec, execBuildReq] at h
    split at h <;> cases h <;> constructor <;> simp_all [CommandIsShortFrame, raise]
  | parse =>
    cases h
    by_cases hn : s.rxCount = 14
    · rw [parseFrame_good hn]
      constructor <;> simp [CommandIsShortFrame, hn, loadFrame]
    · rw [parseFrame_short hn]
      constructor <;> simp_all [CommandIsShortFrame]
  | val d =>
    cases h
    rw [validate_eq]
    constructor
    case oor => exact fun c hc => PerChannel.get_set_ne _ _ fun hcd => hc (.inl (by rw [hcd]))
    all_goals simp [CommandIsShortFrame]
  | calval d =>
    cases h
    rw [calval_eq]
    constructor
    case oor => exact fun c hc => PerChannel.get_set_ne _ _ fun hcd => hc (.inr (.inl (by rw [hcd])))
    all_goals simp [CommandIsShortFrame]
  | decode =>
    by_cases hn : s.rxCount = 14
    · obtain rfl := Host.Outcome.next.inj ((exec_decode_good hn).symm.trans h)
      rw [calvalAll_eq, parseFrame_good hn]
      constructor <;> simp [CommandIsShortFrame, CommandWritesOut, hn, loadFrame]
    · obtain rfl := Host.Outcome.next.inj ((exec_decode_short hn).symm.trans h)
      clear h
      constructor <;> simp_all [CommandIsShortFrame]

/-- No command ends a request: only the transmitter does (R36). -/
theorem StatusAfterCommand.txPending_stays {i : Instr} {s t : State} (h : StatusAfterCommand i s t)
    (hs : s.txPending = true) : t.txPending = true := by
  by_cases hi : i = .buildReq
  · exact h.txPending_armed hi
  · exact (h.txPending_kept hi).trans hs

/-- No command unlocks (R166). -/
theorem StatusAfterCommand.cfgLock_stays {i : Instr} {s t : State} (h : StatusAfterCommand i s t)
    (hs : s.cfgLock = true) : t.cfgLock = true := by
  by_cases hi : i = .lockCfg
  · exact h.cfgLock_set hi
  · exact (h.cfgLock_kept hi).trans hs

/-! ### Steps that run no command -/

/-- What a step that runs no command and is no reset leaves in the fields of STATUS. -/
structure StatusWithoutCommand (s t : State) : Prop where
  frameOk : t.frameOk = s.frameOk
  errShortFrame : t.errShortFrame = s.errShortFrame
  errIllegalCmd : t.errIllegalCmd = true ↔ s.errIllegalCmd = true ∨ nextIsIllegal s = true
  errBus : t.errBus = true ↔ s.errBus = true ∨ ∃ a, nextAccessError s = some (.busError a)
  errCfgLocked : t.errCfgLocked = true ↔ s.errCfgLocked = true ∨ ∃ a, nextAccessError s = some (.cfgLocked a)
  errTxOverrun : t.errTxOverrun = s.errTxOverrun
  txPending_not_armed : t.txPending = true → s.txPending = true
  txPending_done : s.txPending = true → t.txPending = false → s.pending.head? = some .txTake ∧ s.txIdx = 3
  cfgLock : t.cfgLock = s.cfgLock
  oor : t.oor = s.oor
  sfLen : t.sfLen = s.sfLen
  rxCount : t.rxCount = s.rxCount ∨ ∃ b, s.pending.head? = some (.rxPush b)

theorem Takes.statusWithoutCommand {s t : State} (h : Takes s t) (hc : nextCommand s = none)
    (hr : nextIsReset s = false) : StatusWithoutCommand s t := by
  cases h with
  | command i _ _ _ _ _ hi => cases hc.symm.trans hi
  | reset rest hp => simp [nextIsReset, hp] at hr
  | idle hp => constructor <;> simp_all [nextIsIllegal, nextAccessError]
  | rx b rest hp => constructor <;> simp_all [nextIsIllegal, nextAccessError, rxPush]
  | tx rest hp hb =>
    rw [takeByte_eq]
    constructor <;> simp_all [nextIsIllegal, nextAccessError]
  | readOk _ _ _ _ hp he | readErr _ _ _ _ hp he =>
    constructor <;> simp_all [nextIsIllegal]
  | writeBusError _ _ _ _ _ _ _ hi he | writeLocked _ _ _ _ _ _ _ hi he | store _ _ _ _ _ _ _ hi he
  | illegal _ _ _ _ _ hi he =>
    constructor <;> simp_all

/-! ### Every step -/

theorem nextIsShortFrame_of_command {s : State} {i : Instr} (hc : nextCommand s = some i) :
    nextIsShortFrame s = true ↔ CommandIsShortFrame i s := by
  simp [nextIsShortFrame, CommandIsShortFrame, hc]

theorem nextIsShortFrame_of_no_command {s : State} (hc : nextCommand s = none) : nextIsShortFrame s = false := by
  simp [nextIsShortFrame, hc]

/-- Settles O44: a step runs a command, whose column is `StatusAfterCommand`, or runs none. -/
theorem statusChangesOnlyAsListed : Obligations.StatusChangesOnlyAsListed := by
  intro s t h hr
  cases hc : nextCommand s with
  | none =>
    have hs := (step_takes h).statusWithoutCommand hc hr
    simp only [nextIsShortFrame_of_no_command hc]
    exact ⟨fun _ _ => hs.frameOk, nofun, fun _ => ⟨by simp [hs.errShortFrame], hs.errIllegalCmd, hs.errBus,
      hs.errCfgLocked, by simp [hs.errTxOverrun]⟩, nofun, fun _ => hs.txPending_not_armed, nofun, hs.txPending_done,
      fun _ => hs.cfgLock, nofun, hs.cfgLock.trans, fun c _ => by rw [hs.oor], nofun, fun _ _ => hs.sfLen,
      fun _ _ _ => hs.rxCount, by simp⟩
  | some i =>
    obtain ⟨rest, u, hx, rfl, hlegal, haccess⟩ := (step_takes h).of_nextCommand hc
    have hs := exec_statusAfterCommand hx
    have hwrites (c : Channel) (hw : nextWritesOut c s = false) : ¬ CommandWritesOut c i s := fun hi => by
      simp [(nextWritesOut_iff c s).mpr (.inr ⟨i, hc, hi⟩)] at hw
    simp only [← Bool.not_eq_true (nextIsShortFrame s), nextIsShortFrame_of_command hc, hlegal, haccess, ne_eq,
      Option.some.injEq]
    exact ⟨hs.frameOk_kept, hs.frameOk_parsed, fun hi => ⟨hs.errShortFrame hi, by simp [hs.errIllegalCmd hi],
      by simp [hs.errBus hi], by simp [hs.errCfgLocked hi], hs.errTxOverrun hi⟩, hs.cleared,
      fun hi ht => (hs.txPending_kept hi).symm.trans ht, hs.txPending_armed,
      fun hb ht => absurd ((hs.txPending_stays hb).symm.trans ht) (by decide), hs.cfgLock_kept, hs.cfgLock_set,
      hs.cfgLock_stays, fun c hw => hs.oor c (hwrites c hw), hs.sfLen_short, hs.sfLen_kept,
      fun h1 h2 h3 => .inl (hs.rxCount_kept h1 h2 h3), hs.rxCount_cleared⟩

end Sys2Proof.Machine
end

section
/-! Proofs: the state after reset (10_state.md R39), the STATUS word's layout (R32), and REQ_FRAME (R33). -/

namespace Sys2Proof.Machine

/-! ### R29's default bounds fit their registers -/

/-- MAX of distance, 41·DEN_D / 2, is exact. -/
theorem defaultMax_distance {p : Params} (h : p.wf = true) : (defaultMax p .distance).toInt * 2 = 41 * p.denD := by
  obtain ⟨⟨-, hdvd, hle⟩, -⟩ := p.wf_iff.mp h
  have hfit : 41 * p.denD / 2 < 2 ^ 31 := by omega
  rw [defaultMax, BitVec.toInt_ofNat', Int.bmod_eq_of_le] <;> push_cast <;> omega

/-- MIN of an angle. -/
theorem minusThirtyDen_toInt {d : Nat} (hle : d ≤ 818) : (BitVec.ofInt 32 (-30 * d)).toInt = -30 * d := by
  rw [BitVec.toInt_ofInt, Int.bmod_eq_of_le] <;> omega

/-- MAX of an angle. -/
theorem thirtyDen_toInt {d : Nat} (hle : d ≤ 818) : (BitVec.ofNat 32 (30 * d)).toInt = 30 * d := by
  rw [BitVec.toInt_ofNat', Int.bmod_eq_of_le] <;> push_cast <;> omega

/-- The four configuration registers of an angle at R29's defaults. -/
theorem angleDefaults {d : Nat} (hdvd : 2 ∣ d) (hle : d ≤ 818) :
    (BitVec.ofNat 16 (d / 2)).toNat * 2 = d ∧ (BitVec.ofInt 16 (-40 * d)).toInt = -40 * d ∧
    (BitVec.ofInt 32 (-30 * d)).toInt = -30 * d ∧ (BitVec.ofNat 32 (30 * d)).toInt = 30 * d :=
  ⟨halfDen_toNat hdvd hle, minusFortyDen_toInt hle, minusThirtyDen_toInt hle, thirtyDen_toInt hle⟩

theorem statusWord_resetWith (p : Params) : statusWord (State.resetWith p) = 0 := by
  simp [statusWord, statusOor, statusLow, State.resetWith, PerChannel.get]

theorem sticky_resetWith (p : Params) (k : Fin 5) : sticky k (State.resetWith p) = false := by
  fin_cases k <;> rfl

/-- Settles O6: the registers are R29's integers because these fit their widths; every other field is 0 by R39. -/
theorem resetStateIsRule39 : Obligations.ResetStateIsRule39 := by
  intro p hwf
  obtain ⟨-, ⟨-, hYdvd, hYle⟩, ⟨-, hPdvd, hPle⟩, -⟩ := p.wf_iff.mp hwf
  simp only [regs_resetWith]
  refine ⟨fun c => ⟨rfl, rfl, rfl, rfl⟩, ⟨defaultScale_distance hwf, rfl, rfl, defaultMax_distance hwf⟩,
    angleDefaults hYdvd hYle, angleDefaults hPdvd hPle, fun i => ?_,
    ⟨rfl, sticky_resetWith p, fun c => ?_, rfl⟩, ⟨rfl, rfl, rfl, rfl⟩, statusWord_resetWith p, rfl⟩
  · exact Vector.getElem_replicate _
  · cases c <;> rfl

/-- Settles O50: the parameters are legal by hypothesis, and SF_LEN is 0. -/
theorem resetMeetsInv : Obligations.ResetMeetsInv := by
  have hreset (p : Params) (hwf : p.wf = true) : (State.resetWith p).Inv :=
    { configured := hwf
      started := rfl
      idleAtZero := fun _ => rfl
      lengthNotFourteen := (by decide : (0 : BitVec 8) ≠ 14)
      lengthRecorded := fun _ => rfl }
  exact ⟨hreset Params.default (by decide), hreset⟩

/-! ### STATUS and REQ_FRAME -/

theorem getLsbD_statusWord_low (s : State) {k : Nat} (h : k < 8) :
    (statusWord s).getLsbD k = (statusLow s).getLsbD k := by
  rw [statusWord, BitVec.getLsbD_append (m := 8), if_pos h]

theorem getLsbD_statusWord_oor (s : State) {k : Nat} (h : k < 3) :
    (statusWord s).getLsbD (8 + k) = (statusOor s).getLsbD k := by
  rw [statusWord, BitVec.getLsbD_append (m := 8), if_neg (by omega), Nat.add_sub_cancel_left,
    BitVec.getLsbD_append (m := 3), if_pos h]

theorem extractLsb'_statusWord_of_le (s : State) {start : Nat} (len : Nat) (h : 11 ≤ start) :
    (statusWord s).extractLsb' start len =
      (s.rxCount ++ s.sfLen ++ (0 : BitVec 5)).extractLsb' (start - 11) len := by
  rw [statusWord, BitVec.extractLsb'_append_eq_of_le (w := 8) (by omega),
    BitVec.extractLsb'_append_eq_of_le (w := 3) (by omega), Nat.sub_sub]

theorem statusLow_eq_concat (s : State) :
    statusLow s = (((((((BitVec.ofBool s.cfgLock).concat s.txPending).concat s.errTxOverrun).concat
      s.errCfgLocked).concat s.errBus).concat s.errIllegalCmd).concat s.errShortFrame).concat s.frameOk := rfl

theorem statusOor_eq_concat (s : State) :
    statusOor s = ((BitVec.ofBool (s.oor.get .pitch)).concat (s.oor.get .yaw)).concat (s.oor.get .distance) := rfl

/-- Bits 7:0 of STATUS, bit 0 first (R32). -/
theorem status_lowBits (s : State) (k : Nat) (h : k < 8) :
    (readReg .status s).getLsbD k =
      [s.frameOk, s.errShortFrame, s.errIllegalCmd, s.errBus, s.errCfgLocked, s.errTxOverrun, s.txPending,
        s.cfgLock][k] := by
  rw [readReg, getLsbD_statusWord_low s h, statusLow_eq_concat]
  interval_cases k <;> simp [BitVec.getElem_concat]

/-- Bits 10:8 of STATUS: bit 8 + c is OOR[c] (R32). -/
theorem status_oorBits (s : State) (k : Nat) (h : k < 3) :
    (readReg .status s).getLsbD (8 + k) = [s.oor.get .distance, s.oor.get .yaw, s.oor.get .pitch][k] := by
  rw [readReg, getLsbD_statusWord_oor s h, statusOor_eq_concat]
  interval_cases k <;> simp [BitVec.getElem_concat]

theorem status_reservedBits (s : State) : (readReg .status s).extractLsb' 11 5 = 0 :=
  (extractLsb'_statusWord_of_le s 5 (by decide)).trans BitVec.extractLsb'_append_eq_right

theorem status_sfLen (s : State) : (readReg .status s).extractLsb' 16 8 = s.sfLen :=
  calc (statusWord s).extractLsb' 16 8
    _ = (s.rxCount ++ s.sfLen ++ (0 : BitVec 5)).extractLsb' 5 8 := extractLsb'_statusWord_of_le s 8 (by decide)
    _ = (s.rxCount ++ s.sfLen).extractLsb' 0 8 := BitVec.extractLsb'_append_eq_of_le (by decide)
    _ = s.sfLen := BitVec.extractLsb'_append_eq_right

theorem status_rxCount (s : State) : (readReg .status s).extractLsb' 24 8 = s.rxCount :=
  calc (statusWord s).extractLsb' 24 8
    _ = (s.rxCount ++ s.sfLen ++ (0 : BitVec 5)).extractLsb' 13 8 := extractLsb'_statusWord_of_le s 8 (by decide)
    _ = (s.rxCount ++ s.sfLen).extractLsb' 8 8 := BitVec.extractLsb'_append_eq_of_le (by decide)
    _ = s.rxCount := BitVec.extractLsb'_append_eq_left

/-- Settles O18: the word is a concatenation, and each field lies at its own place in it. -/
theorem statusWordLayout : Obligations.StatusWordLayout := by
  intro s
  have hlow := status_lowBits s
  have hoor := status_oorBits s
  exact ⟨hlow 0 (by decide), hlow 1 (by decide), hlow 2 (by decide), hlow 3 (by decide), hlow 4 (by decide),
    hlow 5 (by decide), hlow 6 (by decide), hlow 7 (by decide), hoor 0 (by decide), hoor 1 (by decide),
    hoor 2 (by decide), status_reservedBits s, status_sfLen s, status_rxCount s⟩

/-- A host write to REQ_FRAME is a bus error, whatever its size (R33, R54). -/
theorem accessCheck_write_reqFrame (n : Size) (s : State) :
    accessCheck .write (regOffset .reqFrame) n s = .error (.busError (regOffset .reqFrame)) := by
  cases n with
  | four => rw [accessCheck_regOffset]; rfl
  | one | two => rfl

/-- Settles O17: the word is a constant of the model, and no write passes the access check. -/
theorem requestFrameIsConstant : Obligations.RequestFrameIsConstant := by
  refine ⟨fun s => rfl, fun s k hk => ?_, fun s n v => ?_⟩
  · rw [show readReg .reqFrame s = 0x53000152#32 from rfl]
    revert k
    decide
  · rw [memWrite, accessCheck_write_reqFrame]
    rfl

end Sys2Proof.Machine
end

section
/-! Proofs: the register map, the access check, and what a host's read and write do (20_memory.md R51 to R63). -/

namespace Sys2Proof.Machine

/-! ### The register map -/

/-- An offset names a register exactly when it is that register's own (R55, R56). -/
theorem regAt_eq_some_iff (a : BitVec 8) (r : Reg) : regAt a = some r ↔ regOffset r = a := by
  constructor
  · intro h
    simpa using List.find?_some h
  · rintro rfl
    exact regAt_regOffset r

/-- Settles O11: the offsets are the map's own sums, which a byte holds, and each register is found at its own. -/
theorem registerMapRule55 : Obligations.RegisterMapRule55 := by
  refine ⟨⟨rfl, rfl, rfl⟩, fun c => ?_, by decide, regAt_eq_some_iff⟩
  cases c <;> exact ⟨rfl, rfl, rfl, rfl, rfl, rfl, rfl, rfl⟩

/-! ### The access column by numbers -/

/-- The offsets of a register that can be read: every row of R55 but CMD. -/
theorem any_readable_regAt_iff (a : BitVec 8) :
    (regAt a).any (accessAllowed .read) = true ↔
      a.toNat % 4 = 0 ∧ (a.toNat = 4 ∨ a.toNat = 8 ∨ (0x40 ≤ a.toNat ∧ a.toNat < 0xA0) ∨
        (0xC0 ≤ a.toNat ∧ a.toNat < 0xE0)) := by
  revert a; decide

/-- The offsets of a register that can be written: CMD, and a channel's registers but OUT (R55). -/
theorem any_writable_regAt_iff (a : BitVec 8) :
    (regAt a).any (accessAllowed .write) = true ↔
      a.toNat % 4 = 0 ∧ (a.toNat = 0 ∨ ((0x40 ≤ a.toNat ∧ a.toNat < 0xA0) ∧ a.toNat % 32 ≠ 0x1C)) := by
  revert a; decide

/-- The offsets of SCALE, BIAS, MIN and MAX (R55, R58). -/
theorem any_lockable_regAt_iff (a : BitVec 8) :
    (regAt a).any lockable = true ↔
      (0x40 ≤ a.toNat ∧ a.toNat < 0xA0) ∧
        (a.toNat % 32 = 0x04 ∨ a.toNat % 32 = 0x08 ∨ a.toNat % 32 = 0x10 ∨ a.toNat % 32 = 0x14) := by
  revert a; decide

/-! ### The access check -/

theorem accessAllowed_write_of_lockable {r : Reg} (h : lockable r = true) : accessAllowed .write r = true := by
  cases r with
  | chan c k => cases k with
    | out => cases h
    | _ => rfl
  | _ => cases h

/-- An offset that names no register fails one of tests 1 to 3 (R54, R56). -/
theorem accessCheck_of_regAt_eq_none {a : BitVec 8} (h : regAt a = none) (dir : Dir) (n : Size) (s : State) :
    accessCheck dir a n s = .error (.busError a) := by
  simp [accessCheck, h]

theorem accessCheck_of_size_ne {n : Size} (h : n ≠ .four) (dir : Dir) (a : BitVec 8) (s : State) :
    accessCheck dir a n s = .error (.busError a) := if_pos h

/-- Tests 1 to 4 of the access check: the size, and the access column at the offset (R54). -/
theorem accessCheck_eq_busError_iff (dir : Dir) (a : BitVec 8) (n : Size) (s : State) :
    accessCheck dir a n s = .error (.busError a) ↔ n ≠ .four ∨ (regAt a).any (accessAllowed dir) = false := by
  by_cases hn : n = .four
  swap
  · simp [accessCheck_of_size_ne hn, hn]
  subst hn
  cases hr : regAt a with
  | none => simp [accessCheck_of_regAt_eq_none hr]
  | some r =>
    obtain rfl := (regAt_eq_some_iff a r).mp hr
    rw [accessCheck_regOffset]
    split_ifs with ha hl <;> simp [ha]

/-- Test 5 of the access check: a 32-bit write to a locked register (R54, R58). -/
theorem accessCheck_eq_cfgLocked_iff (dir : Dir) (a : BitVec 8) (n : Size) (s : State) :
    accessCheck dir a n s = .error (.cfgLocked a) ↔
      n = .four ∧ dir = .write ∧ (regAt a).any lockable = true ∧ s.cfgLock = true := by
  by_cases hn : n = .four
  swap
  · simp [accessCheck_of_size_ne hn, hn]
  subst hn
  cases hr : regAt a with
  | none => simp [accessCheck_of_regAt_eq_none hr]
  | some r =>
    obtain rfl := (regAt_eq_some_iff a r).mp hr
    rw [accessCheck_regOffset]
    split_ifs with ha hl
    · have hnot : dir = .write → lockable r = false := by
        rintro rfl
        by_contra hlock
        simp [accessAllowed_write_of_lockable (by simpa using hlock)] at ha
      simp +contextual [hnot]
    · simp [hl]
    · simpa using hl

/-- Settles O12: the check is decided by the size, the access column at the offset and the lock, and R55's table gives
the column by numbers. -/
theorem accessCheckRule54 : Obligations.AccessCheckRule54 := by
  intro dir a n s
  refine ⟨?_, ?_, fun e he => ?_⟩
  · rw [accessCheck_eq_busError_iff, ← Bool.not_eq_true]
    refine or_congr_right ?_
    cases dir with
    | read =>
      rw [any_readable_regAt_iff]
      simp only [reduceCtorEq, false_and, true_and, or_false]
      omega
    | write =>
      rw [any_writable_regAt_iff]
      simp only [reduceCtorEq, false_and, true_and, false_or]
      omega
  · rw [accessCheck_eq_cfgLocked_iff, any_lockable_regAt_iff]
  · obtain hbus | ⟨hlock, -⟩ := accessCheck_error he
    · exact .inl hbus
    · exact .inr hlock

/-! ### What the host's read and write do -/

theorem memRead_of_error {a : BitVec 8} {n : Size} {s : State} {e : Error} (h : accessCheck .read a n s = .error e) :
    memRead a n s = answer (.read 0 .err) (raise e s) := by
  rw [memRead, h]

theorem memRead_of_ok {a : BitVec 8} {n : Size} {s : State} {r : Reg} (h : accessCheck .read a n s = .ok r) :
    memRead a n s = answer (.read (readReg r s) .ok) s := by
  rw [memRead, h]

theorem memWrite_of_error {a : BitVec 8} {n : Size} {s : State} {e : Error}
    (h : accessCheck .write a n s = .error e) (v : Word) :
    memWrite a n v s = .next (answer (.write .err) (raise e s)) := by
  rw [memWrite, h]

theorem memWrite_of_chan {a : BitVec 8} {n : Size} {s : State} {c : Channel} {k : ChanReg}
    (h : accessCheck .write a n s = .ok (.chan c k)) (v : Word) :
    memWrite a n v s = .next (answer (.write .ok) (storeReg (.chan c k) v s)) := by
  rw [memWrite, h]

/-- Settles O13: the error raised is the check's own, and a read is never refused by the lock. -/
theorem failedAccessSetsOneBit : Obligations.FailedAccessSetsOneBit := by
  refine ⟨fun s a n e he => ?_, fun s a n v he => memWrite_of_error he v, fun s a n v he => memWrite_of_error he v⟩
  obtain rfl | ⟨-, hdir, -⟩ := accessCheck_error he
  · exact memRead_of_error he
  · cases hdir

/-! ### Reads -/

theorem accessCheck_read_regOffset {r : Reg} (h : r ≠ .cmd) (s : State) :
    accessCheck .read (regOffset r) .four s = .ok r := by
  have hread : accessAllowed .read r = true := by
    cases r with
    | cmd => exact absurd rfl h
    | _ => rfl
  simp [accessCheck_regOffset, hread]

/-- Settles O14: the check passes at a readable register's offset, and widening a field keeps its number. -/
theorem readReturnsRegisterValue : Obligations.ReadReturnsRegisterValue := by
  refine ⟨fun s r hr => memRead_of_ok (accessCheck_read_regOffset hr s), fun s c => ?_, fun s i => ?_⟩
  · exact ⟨BitVec.toNat_setWidth_of_le (by decide), BitVec.toNat_setWidth_of_le (by decide),
      BitVec.toInt_signExtend_of_le (by decide), BitVec.toInt_signExtend_of_le (by decide), rfl, rfl, rfl, rfl⟩
  · exact BitVec.toNat_setWidth_of_le (by decide)

/-! ### Stores -/

/-- A store to one register of a channel leaves what its other seven read (R59). -/
theorem readChanReg_storeChanReg_ne (r : ChanRegs) {j k : ChanReg} (v : Word) (h : j ≠ k) :
    readChanReg (storeChanReg r k v) j = readChanReg r j := by
  revert h
  cases k <;> cases j <;> simp [readChanReg, storeChanReg]

/-- A store to one register leaves what every other register of the window reads (R59). -/
theorem readReg_storeReg_ne (s : State) {r : Reg} {c : Channel} {k : ChanReg} (v : Word) (h : r ≠ .chan c k) :
    readReg r (storeReg (.chan c k) v s) = readReg r s := by
  cases r with
  | chan d j =>
    simp only [readReg, storeReg]
    by_cases hd : d = c
    · subst hd
      rw [regs_setRegs_same]
      exact readChanReg_storeChanReg_ne _ v (fun hj => h (hj ▸ rfl))
    · rw [regs_setRegs_ne _ _ hd]
  | _ => rfl

/-- Reading back a register just stored to (R59). -/
theorem readReg_storeReg_same (s : State) (c : Channel) (k : ChanReg) (v : Word) :
    readReg (.chan c k) (storeReg (.chan c k) v s) = readChanReg (storeChanReg (s.regs c) k v) k := by
  simp only [readReg, storeReg, regs_setRegs_same]

theorem accessCheck_write_chan {k : ChanReg} (c : Channel) {s : State} (hk : k ≠ .out)
    (hl : lockable (.chan c k) = true → s.cfgLock = false) :
    accessCheck .write (regOffset (.chan c k)) .four s = .ok (.chan c k) := by
  have hwrite : accessAllowed .write (.chan c k) = true := by
    cases k with
    | out => exact absurd rfl hk
    | _ => rfl
  rw [accessCheck_regOffset, hwrite, if_neg (by decide), if_neg]
  rintro ⟨-, hlock, hset⟩
  simp [hl hlock] at hset

/-- Settles O15: the check passes, and the store truncates the word to the register's field. -/
theorem writeStoresOneRegister : Obligations.WriteStoresOneRegister := by
  intro s c k v hk hl
  refine ⟨_, memWrite_of_chan (accessCheck_write_chan c hk hl) v, ?_, fun r => readReg_storeReg_ne s v, rfl⟩
  refine (readReg_storeReg_same s c k v).trans ?_
  cases k with
  | out => exact absurd rfl hk
  | raw | scale | bias | offset => simp [readChanReg, storeChanReg, BitVec.setWidth_eq_extractLsb']
  | _ => rfl

/-- A 32-bit write to a register the lock covers fails the check while the lock is set (R58). -/
theorem accessCheck_write_locked {r : Reg} {s : State} (hr : lockable r = true) (hs : s.cfgLock = true) :
    accessCheck .write (regOffset r) .four s = .error (.cfgLocked (regOffset r)) :=
  (accessCheck_eq_cfgLocked_iff ..).mpr ⟨rfl, rfl, by rw [regAt_regOffset]; exact hr, hs⟩

/-- Settles O16: SCALE, BIAS, MIN and MAX are the registers the lock covers, and it covers none of the other three. -/
theorem lockRefusesConfigurationWrites : Obligations.LockRefusesConfigurationWrites := by
  refine ⟨fun s c k v hs hk => ?_, fun s c k v hk => ?_⟩
  · have hlock : lockable (.chan c k) = true := by
      obtain rfl | rfl | rfl | rfl := hk <;> rfl
    exact memWrite_of_error (accessCheck_write_locked hlock hs) v
  · have hfree : k ≠ .out ∧ lockable (.chan c k) = false := by
      obtain rfl | rfl | rfl := hk <;> exact ⟨by decide, rfl⟩
    obtain ⟨hout, hlock⟩ := hfree
    exact ⟨_, memWrite_of_chan (accessCheck_write_chan c hout (by simp [hlock])) v, rfl⟩

/-! ### The host's steps -/

/-- Once the block has been reset, a step is the schedule's next agent's (R196, R211). -/
theorem step_eq_agentStep {s : State} {e : AgentStep} {rest : List AgentStep} (h : Ready s)
    (hp : s.pending = e :: rest) : step s = agentStep e { s with pending := rest } := by
  obtain ⟨hwf, hreset⟩ := h
  simp [step, stepSchedule, hwf, hreset, hp]

theorem windowOffset_eq_none {p : Params} {addr : Nat} (h : addr < p.blockBase ∨ p.blockBase + 256 ≤ addr) :
    windowOffset p addr = none := if_neg (by omega)

/-- Settles O19: such an address has no offset in the window. -/
theorem accessOutsideWindowRefused : Obligations.AccessOutsideWindowRefused := by
  intro s rest addr n v hs haddr hp
  have hnone := windowOffset_eq_none haddr
  obtain hp | hp := hp <;> rw [step_eq_agentStep hs hp, agentStep, hnone]

/-- Settles O20: the address BLOCK_BASE + a is at offset a of the window. -/
theorem stepOfHostAccess : Obligations.StepOfHostAccess := by
  refine ⟨fun s rest a n hs hp => ?_, fun s rest a n v hs hp => ?_⟩
  · rw [step_eq_agentStep hs hp, agentStep, windowOffset_base_add]
  · rw [step_eq_agentStep hs hp, agentStep, windowOffset_base_add]

end Sys2Proof.Machine
end

section
/-! Proofs: the command word's decoder and encoder, the illegal words, the pseudo-instructions, and the bytes of a frame
that are not used (30_encoding.md R83 to R92). -/

namespace Sys2Proof

/-! ### The channel field -/

theorem Channel.ofCh_eq_some_iff (ch : BitVec 2) (c : Channel) : Channel.ofCh ch = some c ↔ ch = c.toCh := by
  revert ch
  cases c <;> decide

theorem Channel.ofCh_eq_none_iff (ch : BitVec 2) : Channel.ofCh ch = none ↔ ch = 3 := by
  revert ch
  decide

/-! ### When an opcode's channel check passes (R86) -/

theorem plainOp_eq_ok_iff (ch : BitVec 2) (i j : Instr) : plainOp ch i = .ok j ↔ ch = 0 ∧ i = j := by
  by_cases h : ch = 0#2 <;> simp [plainOp, h]

theorem plainOp_isError_iff (ch : BitVec 2) (i : Instr) : (∃ e, plainOp ch i = .error e) ↔ ch ≠ 0 := by
  by_cases h : ch = 0#2 <;> simp [plainOp, h]

theorem channelOp_eq_ok_iff (ch : BitVec 2) (f : Channel → Instr) (j : Instr) :
    channelOp ch f = .ok j ↔ ∃ c : Channel, ch = c.toCh ∧ f c = j := by
  simp only [← Channel.ofCh_eq_some_iff]
  unfold channelOp
  split <;> simp [*]

theorem channelOp_isError_iff (ch : BitVec 2) (f : Channel → Instr) :
    (∃ e, channelOp ch f = .error e) ↔ ch = 3 := by
  rw [← Channel.ofCh_eq_none_iff]
  unfold channelOp
  split <;> simp [*]

/-! ### Decode and encode -/

/-- A word is the concatenation of its three fields (R84, R85). -/
theorem append_splitWord (w : Word) : (splitWord w).rsv ++ (splitWord w).ch ++ (splitWord w).op = w := by
  simp only [splitWord]
  rw [BitVec.extractLsb'_append_extractLsb'_eq_extractLsb' (start₂ := 10) (start₁ := 8) rfl]
  exact BitVec.extractLsb'_append_extractLsb'

/-- What the opcode map decodes is encoded in the same two fields (R86, R89). -/
theorem cmdWord_eq_encode_of_decodeOp {op : BitVec 8} {ch : BitVec 2} {i : Instr} (h : decodeOp op ch = .ok i) :
    cmdWord op ch = encode i := by
  have hop {n : Nat} (hn : op.toNat = n) : op = BitVec.ofNat 8 n := by simp [← hn]
  unfold decodeOp at h
  split at h
  case h_5 hn | h_6 hn | h_7 hn =>
    obtain ⟨c, rfl, rfl⟩ := (channelOp_eq_ok_iff ..).mp h
    rw [hop hn]
    rfl
  case h_11 => cases h
  all_goals
    obtain ⟨rfl, rfl⟩ := (plainOp_eq_ok_iff ..).mp h
    rw [hop ‹_›]
    rfl

theorem decode_encode (i : Instr) : decode (encode i) = .ok i := by
  cases i with
  | cal c | val c | calval c => cases c <;> rfl
  | _ => rfl

/-- A word decodes to a command exactly when it is that command's word (R89). -/
theorem decode_eq_ok_iff (w : Word) (i : Instr) : decode w = .ok i ↔ w = encode i := by
  constructor
  · intro h
    simp only [decode] at h
    split_ifs at h with hrsv
    calc w = (splitWord w).rsv ++ (splitWord w).ch ++ (splitWord w).op := (append_splitWord w).symm
      _ = cmdWord (splitWord w).op (splitWord w).ch := by rw [not_not.mp hrsv]; rfl
      _ = encode i := cmdWord_eq_encode_of_decodeOp h
  · rintro rfl
    exact decode_encode i

/-- Settles O2: the decoder and the encoder are inverse to each other on legal words. -/
theorem decodeEncodeAgree : Obligations.DecodeEncodeAgree := by
  refine ⟨by decide, fun c => ?_, by decide, decode_eq_ok_iff, fun w w' i hw hw' => ?_⟩
  · cases c <;> decide
  · rw [(decode_eq_ok_iff w i).mp hw, (decode_eq_ok_iff w' i).mp hw']

/-- Settles O1: each word of the map is its command's, and each example breaks one ground of R87. -/
theorem tableWordsDecode : Obligations.TableWordsDecode := by
  unfold Obligations.TableWordsDecode
  decide

/-! ### The illegal words -/

theorem splitWord_op_toNat (w : Word) : (splitWord w).op.toNat = w.toNat % 256 := by
  simp [splitWord]

theorem splitWord_ch_toNat (w : Word) : (splitWord w).ch.toNat = w.toNat / 256 % 4 := by
  simp [splitWord, Nat.shiftRight_eq_div_pow]

theorem splitWord_rsv_toNat (w : Word) : (splitWord w).rsv.toNat = w.toNat / 2 ^ 10 := by
  have hfits : w.toNat / 2 ^ 10 < 2 ^ 22 := by omega
  simp only [splitWord, BitVec.extractLsb'_toNat, Nat.shiftRight_eq_div_pow, Nat.mod_eq_of_lt hfits]

/-- R87 (b) to (d): the opcode map has no command for op and ch. -/
theorem decodeOp_isError_iff (op : BitVec 8) (ch : BitVec 2) :
    (∃ e, decodeOp op ch = .error e) ↔
      0x0A ≤ op.toNat ∨ ((op.toNat < 4 ∨ 6 < op.toNat) ∧ ch ≠ 0) ∨ ((4 ≤ op.toNat ∧ op.toNat ≤ 6) ∧ ch = 3) := by
  unfold decodeOp
  split
  case h_5 hn | h_6 hn | h_7 hn => simp [hn, channelOp_isError_iff]
  case h_11 =>
    refine iff_of_true ⟨_, rfl⟩ (.inl ?_)
    simp only [imp_false] at *
    omega
  all_goals simp [*, plainOp_isError_iff]

theorem decode_isError_iff (w : Word) :
    (∃ e, decode w = .error e) ↔
      (splitWord w).rsv ≠ 0 ∨ ∃ e, decodeOp (splitWord w).op (splitWord w).ch = .error e := by
  by_cases hrsv : (splitWord w).rsv = 0#22 <;> simp [decode, hrsv]

/-- The commands, one for each row of the opcode map and channel it takes (R86). -/
def allCommands : List Instr :=
  [.nop, .buildReq, .parse, .rxClear, .cal .distance, .cal .yaw, .cal .pitch, .val .distance, .val .yaw, .val .pitch,
   .calval .distance, .calval .yaw, .calval .pitch, .decode, .clrStatus, .lockCfg]

theorem mem_allCommands (i : Instr) : i ∈ allCommands := by
  cases i with
  | cal c | val c | calval c => cases c <;> decide
  | _ => decide

/-- Settles O3: the decoder rejects on R87's grounds, and the legal words are the words of the sixteen commands. -/
theorem illegalWordsAreRule87 : Obligations.IllegalWordsAreRule87 := by
  refine ⟨fun w => ?_, fun w e s h => ?_, allCommands.map encode, rfl, by decide, fun w => ?_⟩
  · rw [decode_isError_iff, decodeOp_isError_iff]
    simp only [ne_eq, ← BitVec.toNat_inj, splitWord_op_toNat, splitWord_ch_toNat, splitWord_rsv_toNat]
    rfl
  · rw [Machine.executeCommand, h]
    rfl
  · simp only [decode_eq_ok_iff, List.mem_map]
    exact ⟨fun ⟨i, hi⟩ => ⟨i, mem_allCommands i, hi.symm⟩, fun ⟨i, _, hi⟩ => ⟨i, hi.symm⟩⟩

/-! ### The pseudo-instructions -/

theorem Line.wf_setOff_iff (c : Channel) (q : Int) : (Line.setOff c q).wf = true ↔ -32768 ≤ q ∧ q ≤ 32767 := by
  simp [Line.wf]

end Sys2Proof

namespace Sys2Proof.Machine

/-- A scheduled write to a channel's register, named by the register, stores its value and is answered OK (R91). -/
theorem step_writeReg_chan {s : State} {k : ChanReg} (c : Channel) (v : Word) (hs : Ready s) (hk : k ≠ .out)
    (hl : lockable (.chan c k) = true → s.cfgLock = false) :
    step { s with pending := [writeReg s.params (.chan c k) v] } = .next { s with
      chan := s.chan.set c (storeChanReg (s.regs c) k v)
      pending := [], replies := s.replies ++ [.write .ok] } := by
  rw [step_eq_agentStep (s := { s with pending := [writeReg s.params (.chan c k) v] }) hs rfl]
  simp only [writeReg, agentStep, windowOffset_base_add]
  exact memWrite_of_chan (accessCheck_write_chan c (s := { s with pending := [] }) hk hl) v

/-- A program with an ill-formed line is refused as a whole (D5, I11). -/
theorem programSteps_eq_none_of_mem (p : Params) {lines : List Line} {l : Line} (hmem : l ∈ lines)
    (hl : l.wf = false) : programSteps p lines = none := by
  refine if_neg fun hall => ?_
  simpa [hl] using List.all_eq_true.mp hall l hmem

/-- A code in SETOFF's range survives the 32-bit write and the truncation to OFFSET (R92, R59). -/
theorem toInt_truncate_ofInt {q : Int} (hlo : -32768 ≤ q) (hhi : q ≤ 32767) :
    ((BitVec.ofInt 32 q).truncate 16).toInt = q := by
  simp only [BitVec.truncate_eq_setWidth, BitVec.toInt_setWidth, BitVec.toNat_ofInt, Int.bmod_def]
  omega

theorem storeChanReg_raw_zeroExtend (r : ChanRegs) (b : Byte) :
    storeChanReg r .raw (b.zeroExtend 32) = { r with raw := b } := by
  simp [storeChanReg]

/-- Settles O10: each line is one write of a register that the lock does not cover. -/
theorem pseudoLinesStoreTheirValue : Obligations.PseudoLinesStoreTheirValue := by
  refine ⟨fun s c q hs hlo hhi => ?_, fun p c q before after hq => ?_, fun s c b hs => ?_⟩
  · have hline := (Line.wf_setOff_iff c q).mpr ⟨hlo, hhi⟩
    refine ⟨writeReg s.params (.chan c .offset) (BitVec.ofInt 32 q), _, by simp [programSteps, hline, lineSteps],
      step_writeReg_chan c _ hs (by decide) (fun hlock => nomatch hlock), ?_, ?_⟩
    · rw [State.regs, PerChannel.get_set_same]
      exact toInt_truncate_ofInt hlo hhi
    · cases c <;> rfl
  · refine programSteps_eq_none_of_mem p (l := .setOff c q) (by simp) ?_
    rw [← Bool.not_eq_true, Line.wf_setOff_iff]
    omega
  · refine ⟨_, rfl, (step_writeReg_chan (k := .raw) c _ hs (by decide) (fun hlock => nomatch hlock)).trans ?_⟩
    rw [storeChanReg_raw_zeroExtend]
    rfl

/-! ### The bytes of a frame that are not used -/

/-- Two receive buffers that hold the same bytes 2 to 12 (R81, R83). -/
def SameFields (b b' : Vector Byte 14) : Prop :=
  ∀ (k : Nat) (h : k < 14), k ≠ 0 → k ≠ 1 → k ≠ 13 → b'[k] = b[k]

/-- The fields of a frame are its bytes 2 to 12 (R81). -/
theorem loadFrame_of_sameFields (s : State) {b : Vector Byte 14} (h : SameFields s.rxBuf b) :
    loadFrame { s with rxBuf := b } = { loadFrame s with rxBuf := b } := by
  simp [loadFrame, h 2, h 3, h 4, h 5, h 6, h 7, h 8, h 9, h 10, h 11, h 12]

/-- PARSE uses of a frame its fields and its length (R111). -/
theorem parseFrame_of_sameFields (s : State) {b : Vector Byte 14} (h : SameFields s.rxBuf b) :
    parseFrame { s with rxBuf := b } = { parseFrame s with rxBuf := b } := by
  by_cases hn : s.rxCount = 14
  · rw [parseFrame_good hn, parseFrame_good (s := { s with rxBuf := b }) hn, loadFrame_of_sameFields s h]
  · rw [parseFrame_short hn, parseFrame_short (s := { s with rxBuf := b }) hn]

/-- The calibrator does not look at rx_buf, and keeps it (R163). -/
theorem calvalAll_withRxBuf (s : State) (b : Vector Byte 14) :
    calvalAll { s with rxBuf := b } = { calvalAll s with rxBuf := b } := by
  simp only [calvalAll, calval_eq]
  rfl

/-- Settles O26: PARSE takes nothing from these bytes, and what follows it in DECODE takes nothing from rx_buf. -/
theorem headerAndTerminatorIgnored : Obligations.HeaderAndTerminatorIgnored := by
  intro s s' i hi heq hfields
  have hparse : parseFrame s' = { parseFrame s with rxBuf := s'.rxBuf } :=
    (congrArg parseFrame heq).trans (parseFrame_of_sameFields s hfields)
  obtain rfl | rfl := hi
  · exact ⟨_, _, rfl, rfl, hparse⟩
  · have hok : (parseFrame s').frameOk = (parseFrame s).frameOk := by rw [hparse]
    simp only [exec, execDecode, hok]
    split
    · exact ⟨_, _, rfl, rfl, by rw [hparse, calvalAll_withRxBuf]⟩
    · exact ⟨_, _, rfl, rfl, hparse⟩

end Sys2Proof.Machine
end

section
/-! Proofs: one step of the receiver and of the transmitter, and the codec's commands (40_frame_codec.md R100 to
R112). -/

namespace Sys2Proof.Machine

/-! ### The ports -/

/-- Settles O21: the step is `rxPush`, whose count and buffer are `countByte` and `storeByte`. -/
theorem receivePushRule100 : Obligations.ReceivePushRule100 :=
  fun s b _ hs hp =>
    ⟨_, step_eq_agentStep hs hp, countByte_toNat s.rxCount, storeByte_getElem s.rxBuf s.rxCount b, rfl⟩

/-- The bytes of the request frame in the order in which they are sent (R82). -/
theorem reqByte_eq_getElem (k : BitVec 2) : reqByte k = [0x52#8, 0x01#8, 0x00#8, 0x53#8][k.toNat]'k.isLt := by
  revert k
  decide

theorem takeByte_last {s : State} (h : s.txIdx = 3) :
    takeByte s = { s with txPending := false, txIdx := 0, sent := s.sent ++ [reqByte s.txIdx] } := if_pos h

theorem takeByte_not_last {s : State} (h : s.txIdx ≠ 3) :
    takeByte s = { s with txIdx := s.txIdx + 1, sent := s.sent ++ [reqByte s.txIdx] } := if_neg h

theorem step_txTake {s : State} {rest : List AgentStep} (hs : Ready s) (hp : s.pending = .txTake :: rest)
    (hbusy : s.txPending = true) : step s = .next (takeByte { s with pending := rest }) := by
  rw [step_eq_agentStep hs hp, agentStep, txTake, if_pos hbusy]

theorem toNat_add_one_of_ne_three {k : BitVec 2} (h : k ≠ 3) : (k + 1).toNat = k.toNat + 1 := by
  revert k
  decide

/-- Settles O22: the step is `takeByte` while a request is pending, and a fault otherwise. -/
theorem transmitTakeRule104 : Obligations.TransmitTakeRule104 := by
  refine ⟨fun s rest hs hp hbusy => ⟨_, step_txTake hs hp hbusy, ?_⟩, fun s rest hs hp hidle => ?_⟩
  · rw [← reqByte_eq_getElem]
    by_cases hlast : s.txIdx = 3
    · rw [takeByte_last (s := { s with pending := rest }) hlast]
      exact ⟨rfl, fun _ => ⟨rfl, rfl⟩, fun hmore => absurd hlast hmore, rfl⟩
    · rw [takeByte_not_last (s := { s with pending := rest }) hlast]
      exact ⟨rfl, fun h => absurd h hlast, fun hmore => ⟨hbusy, toNat_add_one_of_ne_three hmore⟩, rfl⟩
  · rw [step_eq_agentStep hs hp, agentStep, txTake, if_neg (by simp [hidle])]

/-! ### PARSE and RX_CLEAR -/

/-- Settles O25: PARSE loads the fields by offset from a 14-byte frame, and from no other. -/
theorem parseRule108 : Obligations.ParseRule108 := by
  refine ⟨decode_encode .parse, fun s hn => ?_, fun s hn => congrArg Host.Outcome.next (parseFrame_short hn)⟩
  refine ⟨_, congrArg Host.Outcome.next (parseFrame_good hn), rfl, rfl, rfl, fun i hi => ?_, fun c => ?_, rfl⟩
  · interval_cases i <;> rfl
  · cases c <;> rfl

/-- Settles O27: RX_CLEAR is `clearRx`. -/
theorem rxClearRule112 : Obligations.RxClearRule112 := ⟨decode_encode .rxClear, fun _ => rfl⟩

end Sys2Proof.Machine
end

section
/-! Proofs: after BUILD_REQ the request frame leaves in order, whatever is received meanwhile (20_memory.md R70,
40_frame_codec.md R104, R106). -/

namespace Sys2Proof.Machine

/-! ### Runs -/

theorem run_succ {s t : State} (k : Nat) (h : step s = .next t) : run (k + 1) s = run k t := by
  rw [run, h]

theorem run_add {j : Nat} (k : Nat) {s t : State} (h : run j s = .next t) : run (j + k) s = run k t := by
  induction j generalizing s with
  | zero =>
    cases h
    rw [Nat.zero_add]
  | succ j ih =>
    unfold run at h
    split at h
    · next u hu => rw [Nat.add_right_comm, run_succ _ hu, ih h]
    · next hstop => exact absurd h (hstop t)

/-! ### The request frame -/

/-- A host write of w to CMD runs w as a command, and adds the reply OK (R53, R160). -/
theorem step_writeCmd {s : State} {w : Word} {rest : List AgentStep} (hs : Ready s)
    (hp : s.pending = .hostWrite s.params.blockBase .four w :: rest) :
    step s = answerOk (executeCommand w { s with pending := rest }) := by
  have hcheck : accessCheck .write 0 .four { s with pending := rest } = .ok .cmd :=
    accessCheck_regOffset .write .cmd _
  rw [step_eq_agentStep hs hp, agentStep, windowOffset_base]
  simp only [memWrite, hcheck]

/-- Where the transmitter stands in s: whether a request is pending, which byte is next, and which bytes have left; and
the schedule still to come (R36, R104). -/
structure TransmitterAt (busy : Bool) (k : BitVec 2) (sent : List Byte) (rest : List AgentStep) (s : State) :
    Prop where
  ready : Ready s
  txPending : s.txPending = busy
  txIdx : s.txIdx = k
  sent : s.sent = sent
  pending : s.pending = rest

/-- BUILD_REQ arms an idle sequencer at byte 0 (R106). -/
theorem step_buildReq {s : State} {rest : List AgentStep} (hs : Ready s) (hidle : s.txPending = false)
    (hp : s.pending = .hostWrite s.params.blockBase .four 0x00000001#32 :: rest) :
    ∃ t, step s = .next t ∧ TransmitterAt true 0 s.sent rest t := by
  have hexec : executeCommand 0x00000001#32 { s with pending := rest } =
      .next { s with pending := rest, txPending := true, txIdx := 0 } := by
    rw [executeCommand, show decode 0x00000001#32 = .ok .buildReq from decode_encode .buildReq]
    exact if_neg (by simp [hidle])
  exact ⟨_, (step_writeCmd hs hp).trans (congrArg answerOk hexec), hs, rfl, rfl, rfl, rfl⟩

/-- Received bytes leave the transmitter where it stands, and the tx_take after them sends its next byte; after byte 3
the index wraps to 0 (R70, R104). -/
theorem TransmitterAt.run_rxPushes_txTake {k : BitVec 2} {sent bs : List Byte} {rest : List AgentStep} {s : State}
    (h : TransmitterAt true k sent (bs.map .rxPush ++ .txTake :: rest) s) :
    ∃ t, run (bs.length + 1) s = .next t ∧ TransmitterAt (k != 3) (k + 1) (sent ++ [reqByte k]) rest t := by
  obtain ⟨hs, hbusy, rfl, rfl, hp⟩ := h
  induction bs generalizing s with
  | nil =>
    refine ⟨_, run_succ 0 (step_txTake hs hp hbusy), ?_⟩
    by_cases hlast : s.txIdx = 3
    · rw [takeByte_last (s := { s with pending := rest }) hlast]
      exact ⟨hs, by simp [hlast], by rw [hlast]; rfl, rfl, rfl⟩
    · rw [takeByte_not_last (s := { s with pending := rest }) hlast]
      exact ⟨hs, hbusy.trans (bne_iff_ne.mpr hlast).symm, rfl, rfl, rfl⟩
  | cons b bs ih =>
    have hstep : step s = .next (rxPush b { s with pending := bs.map .rxPush ++ .txTake :: rest }) :=
      step_eq_agentStep hs hp
    rw [List.length_cons, run_succ _ hstep]
    exact ih hs hbusy rfl

/-- Settles O24: BUILD_REQ arms the sequencer, and each tx_take sends its next byte, whatever came in before it. -/
theorem requestLeavesInFrameOrder : Obligations.RequestLeavesInFrameOrder := by
  intro s rest bs0 bs1 bs2 bs3 hs hidle schedule steps
  have hschedule : schedule ++ rest = .hostWrite s.params.blockBase .four 0x00000001#32 ::
      (bs0.map .rxPush ++ .txTake :: (bs1.map .rxPush ++ .txTake :: (bs2.map .rxPush ++ .txTake ::
        (bs3.map .rxPush ++ .txTake :: rest)))) := by
    simp [schedule]
  have hsteps : steps = bs0.length + 1 + (bs1.length + 1 + (bs2.length + 1 + (bs3.length + 1))) + 1 := by
    simp only [steps]
    omega
  obtain ⟨t, hbuild, h⟩ := step_buildReq (s := { s with pending := schedule ++ rest }) hs hidle hschedule
  obtain ⟨t0, hrun0, h0⟩ := h.run_rxPushes_txTake
  obtain ⟨t1, hrun1, h1⟩ := h0.run_rxPushes_txTake
  obtain ⟨t2, hrun2, h2⟩ := h1.run_rxPushes_txTake
  obtain ⟨t3, hrun3, h3⟩ := h2.run_rxPushes_txTake
  refine ⟨t3, ?_, ?_, h3.txPending, h3.txIdx, h3.pending⟩
  · rw [hsteps, run_succ _ hbuild, run_add _ hrun0, run_add _ hrun1, run_add _ hrun2, hrun3]
  · rw [h3.sent]
    simp [reqByte]

end Sys2Proof.Machine
end

section
/-! Proofs: the frame buffer holds the bytes delivered since the last clear (40_frame_codec.md R100, R101). -/

namespace Sys2Proof.Machine

/-! ### The ports' hidden state under a command -/

/-- No command writes rx_buf, and only BUILD_REQ moves tx_idx (R22, R106). -/
theorem exec_keeps_ports {i : Instr} {s t : State} (h : exec i s = .next t) :
    t.rxBuf = s.rxBuf ∧ (i ≠ .buildReq → t.txIdx = s.txIdx) := by
  cases i with
  | nop | rxClear | cal | clrStatus | lockCfg =>
    cases h
    exact ⟨rfl, fun _ => rfl⟩
  | buildReq =>
    simp only [exec, execBuildReq] at h
    split at h <;> cases h <;> exact ⟨rfl, fun hi => absurd rfl hi⟩
  | val c =>
    cases h
    rw [validate_eq]
    exact ⟨rfl, fun _ => rfl⟩
  | calval c =>
    cases h
    rw [calval_eq]
    exact ⟨rfl, fun _ => rfl⟩
  | parse =>
    cases h
    by_cases hn : s.rxCount = 14
    · rw [parseFrame_good hn]
      exact ⟨rfl, fun _ => rfl⟩
    · rw [parseFrame_short hn]
      exact ⟨rfl, fun _ => rfl⟩
  | decode =>
    by_cases hn : s.rxCount = 14
    · obtain rfl := Host.Outcome.next.inj ((exec_decode_good hn).symm.trans h)
      rw [calvalAll_eq, parseFrame_good hn]
      exact ⟨rfl, fun _ => rfl⟩
    · obtain rfl := Host.Outcome.next.inj ((exec_decode_short hn).symm.trans h)
      exact ⟨rfl, fun _ => rfl⟩

/-! ### The bytes delivered since the last clear -/

theorem HoldsReceived.of_eq {bs : List Byte} {s t : State} (h : HoldsReceived bs s) (hbuf : t.rxBuf = s.rxBuf)
    (hcount : t.rxCount = s.rxCount) : HoldsReceived bs t := by
  refine ⟨hcount ▸ h.count, fun k hk hb => ?_⟩
  rw [hbuf]
  exact h.stored k hk hb

/-- A cleared buffer holds no byte, whatever rx_buf still contains (R34, R112). -/
theorem HoldsReceived.of_cleared {t : State} (h : t.rxCount = 0) : HoldsReceived [] t :=
  ⟨by rw [h]; rfl, fun _ _ hb => absurd hb (Nat.not_lt_zero _)⟩

/-- rx_push adds its byte to those delivered: below 14 rx_count is still their exact number (R100, R101). -/
theorem HoldsReceived.rxPush {bs : List Byte} {s : State} (h : HoldsReceived bs s) (b : Byte) :
    HoldsReceived (bs ++ [b]) (rxPush b s) := by
  have hcount : s.rxCount.toNat = min 255 bs.length := h.count
  refine ⟨?_, fun k hk hb => ?_⟩
  · calc (countByte s.rxCount).toNat = min 255 (s.rxCount.toNat + 1) := countByte_toNat _
      _ = min 255 (bs ++ [b]).length := by rw [List.length_append, List.length_singleton]; omega
  · refine (storeByte_getElem s.rxBuf s.rxCount b k hk).trans ?_
    rw [List.length_append, List.length_singleton] at hb
    by_cases hlt : k < bs.length
    · rw [if_neg (by omega), List.getElem_append_left hlt]
      exact h.stored k hk hlt
    · obtain rfl : k = bs.length := by omega
      rw [if_pos (by omega), List.getElem_concat_length rfl]

/-- The commands that start a new frame (R101). -/
def ClearsReceived (i : Instr) : Prop := i = .parse ∨ i = .decode ∨ i = .rxClear

theorem receivedAfter_of_rxPush {s : State} {b : Byte} {rest : List AgentStep} (bs : List Byte)
    (hp : s.pending = .rxPush b :: rest) : receivedAfter bs s = bs ++ [b] := by
  simp [receivedAfter, hp]

/-- A host write delivers no byte; it clears if its command does. -/
theorem receivedAfter_of_hostWrite {s : State} {addr : Nat} {n : Size} {v : Word} {rest : List AgentStep}
    (bs : List Byte) (hp : s.pending = .hostWrite addr n v :: rest) :
    receivedAfter bs s =
      if nextCommand s = some .parse ∨ nextCommand s = some .decode ∨ nextCommand s = some .rxClear then []
      else bs := by
  simp [receivedAfter, nextIsReset, hp, or_assoc]

/-- A command leaves of the received bytes what the history says (R101). -/
theorem HoldsReceived.exec {bs : List Byte} {i : Instr} {s t : State} (h : HoldsReceived bs s)
    (hx : exec i s = .next t) :
    (ClearsReceived i → HoldsReceived [] t) ∧ (¬ ClearsReceived i → HoldsReceived bs t) := by
  have hstatus := exec_statusAfterCommand hx
  refine ⟨fun hi => .of_cleared (hstatus.rxCount_cleared hi), fun hi => ?_⟩
  simp only [ClearsReceived, not_or] at hi
  obtain ⟨hparse, hdecode, hclear⟩ := hi
  exact h.of_eq (exec_keeps_ports hx).1 (hstatus.rxCount_kept hparse hdecode hclear)

/-- R101's step: a byte is delivered, the received bytes are cleared, or neither. -/
theorem step_holdsReceived {bs : List Byte} {s t : State} (h : HoldsReceived bs s) (hstep : step s = .next t) :
    HoldsReceived (receivedAfter bs s) t := by
  cases step_takes hstep with
  | rx b rest hp =>
    rw [receivedAfter_of_rxPush bs hp]
    have hrest : HoldsReceived bs { s with pending := rest } := h.of_eq rfl rfl
    exact hrest.rxPush b
  | reset rest hp =>
    rw [show receivedAfter bs s = [] by simp [receivedAfter, nextIsReset, hp]]
    exact .of_cleared rfl
  | command i u addr v rest hp hc _ _ hx =>
    have hrest : HoldsReceived bs { s with pending := rest } := h.of_eq rfl rfl
    obtain ⟨hclears, hkeeps⟩ := hrest.exec hx
    simp only [receivedAfter_of_hostWrite bs hp, hc, Option.some.injEq]
    split
    · next hi => exact (hclears hi).of_eq rfl rfl
    · next hi => exact (hkeeps hi).of_eq rfl rfl
  | writeBusError _ _ _ _ _ hp hc | writeLocked _ _ _ _ _ hp hc | store _ _ _ _ _ hp hc | illegal _ _ _ hp hc =>
    rw [receivedAfter_of_hostWrite bs hp, hc, if_neg (by simp)]
    exact h.of_eq rfl rfl
  | idle hp | readOk _ _ _ _ hp | readErr _ _ _ _ hp =>
    rw [show receivedAfter bs s = bs by simp [receivedAfter, nextIsReset, nextCommand, hp]]
    exact h.of_eq rfl rfl
  | tx rest hp =>
    rw [show receivedAfter bs s = bs by simp [receivedAfter, nextIsReset, nextCommand, hp], takeByte_eq]
    exact h.of_eq rfl rfl

/-- Settles O28: rx_push is the only step that delivers a byte, and rx_count is set to 0 by R101's four events only. -/
theorem frameBufferHoldsDeliveredBytes : Obligations.FrameBufferHoldsDeliveredBytes :=
  ⟨fun _ _ _ => step_holdsReceived, fun _ => .of_cleared rfl⟩

/-- R101 along a run, the delivered bytes followed step by step. -/
theorem run_holdsReceived {k : Nat} {bs : List Byte} {s t : State} (h : HoldsReceived bs s)
    (hrun : run k s = .next t) : HoldsReceived (receivedSinceClear k s bs) t := by
  induction k generalizing s bs with
  | zero =>
    cases hrun
    exact h
  | succ k ih =>
    unfold run at hrun
    unfold receivedSinceClear
    split at hrun
    · next u hu => exact ih (step_holdsReceived h hu) hrun
    · next hstop => exact absurd hrun (hstop t)

/-- Settles O51: the step lemma of O28, run from the state after reset. -/
theorem frameBufferInEveryRun : Obligations.FrameBufferInEveryRun :=
  fun _ _ _ _ _ h => run_holdsReceived (.of_cleared rfl) h

end Sys2Proof.Machine
end

section
/-! Proofs: every step keeps the invariant (40_frame_codec.md R104, R108, 42_control.md R165, 60_exceptions.md R180). -/

namespace Sys2Proof.Machine

/-- After a command SF_LEN is 0, or the length of the short frame just recorded, or what it was (R108, R165, R180). -/
theorem exec_keeps_recordedLength {i : Instr} {s t : State} (hx : exec i s = .next t) (hlen : s.sfLen ≠ 14)
    (hrec : s.errShortFrame = false → s.sfLen = 0) :
    t.sfLen ≠ 14 ∧ (t.errShortFrame = false → t.sfLen = 0) := by
  have hstatus := exec_statusAfterCommand hx
  by_cases hclr : i = .clrStatus
  · rw [(hstatus.cleared hclr).2]
    exact ⟨by decide, fun _ => rfl⟩
  have hbit := hstatus.errShortFrame hclr
  by_cases hshort : CommandIsShortFrame i s
  · rw [hstatus.sfLen_short hshort]
    exact ⟨hshort.2, fun hnone => by simp [hnone, hshort] at hbit⟩
  · rw [hstatus.sfLen_kept hshort hclr]
    exact ⟨hlen, fun hnone => hrec (by simpa [hnone, hshort] using hbit)⟩

/-- A command leaves an idle sequencer at byte 0: the only one that moves tx_idx is BUILD_REQ, which arms it (R106). -/
theorem exec_keeps_idleAtZero {i : Instr} {s t : State} (hx : exec i s = .next t)
    (h : s.txPending = false → s.txIdx = 0) : t.txPending = false → t.txIdx = 0 := by
  have hstatus := exec_statusAfterCommand hx
  intro hidle
  by_cases hi : i = .buildReq
  · rw [hstatus.txPending_armed hi] at hidle
    cases hidle
  · rw [(exec_keeps_ports hx).2 hi]
    exact h ((hstatus.txPending_kept hi).symm.trans hidle)

theorem State.Inv.exec {i : Instr} {s t : State} (h : s.Inv) (hx : exec i s = .next t) : t.Inv := by
  have hsurr := exec_keeps_surroundings hx
  obtain ⟨hlen, hrec⟩ := exec_keeps_recordedLength hx h.lengthNotFourteen h.lengthRecorded
  exact ⟨hsurr.params ▸ h.configured, hsurr.hasReset.trans h.started, exec_keeps_idleAtZero hx h.idleAtZero, hlen,
    hrec⟩

/-- The transmitter ends a request with tx_idx back at byte 0 (R104). -/
theorem State.Inv.takeByte {s : State} (h : s.Inv) (hbusy : s.txPending = true) : (takeByte s).Inv := by
  obtain ⟨hconf, hstart, -, hlen, hrec⟩ := h
  by_cases hlast : s.txIdx = 3
  · rw [takeByte_last hlast]
    exact ⟨hconf, hstart, fun _ => rfl, hlen, hrec⟩
  · rw [takeByte_not_last hlast]
    exact ⟨hconf, hstart, fun hidle => (nomatch hidle.symm.trans hbusy), hlen, hrec⟩

/-- Settles O49: only commands, tx_take and reset write what the invariant speaks of. -/
theorem stepKeepsInv : Obligations.StepKeepsInv := by
  intro s t h hstep
  have hrest (rest : List AgentStep) : ({ s with pending := rest } : State).Inv :=
    ⟨h.configured, h.started, h.idleAtZero, h.lengthNotFourteen, h.lengthRecorded⟩
  cases step_takes hstep with
  | idle => exact h
  | readOk | readErr | writeBusError | writeLocked | store | illegal | rx =>
    exact ⟨h.configured, h.started, h.idleAtZero, h.lengthNotFourteen, h.lengthRecorded⟩
  | tx rest _ hbusy => exact (hrest rest).takeByte hbusy
  | reset rest =>
    obtain ⟨hconf, hstart, hidle, hlen, hrec⟩ := resetMeetsInv.2 s.params h.configured
    exact ⟨hconf, hstart, hidle, hlen, hrec⟩
  | command i u addr v rest _ _ _ _ hx =>
    obtain ⟨hconf, hstart, hidle, hlen, hrec⟩ := (hrest rest).exec hx
    exact ⟨hconf, hstart, hidle, hlen, hrec⟩

end Sys2Proof.Machine
end

section
/-! Proofs: the calibrator's three commands and their function of the raw byte (41_calibrator.md R130 to R143). -/

namespace Sys2Proof.Machine

/-! ### CAL -/

/-- Settles O30: the code fits its register, so encoding it in 32 bits loses nothing. -/
theorem calRule131 : Obligations.CalRule131 := by
  refine ⟨⟨decode_encode (.cal .distance), decode_encode (.cal .yaw), decode_encode (.cal .pitch),
    .noSuchChannel, rfl⟩, fun c s => ?_⟩
  have hcode := calib_toInt (s.regs c)
  obtain ⟨hlo, hhi⟩ := calib_bounds (s.regs c)
  exact ⟨_, hcode, hlo.trans_eq hcode.symm, hcode.trans_le hhi, rfl⟩

/-! ### The code as a function of the raw byte (R132) -/

/-- SCALE is unsigned, so a larger raw byte gives no smaller code. -/
theorem calib_mono_raw (r : ChanRegs) {a b : Byte} (h : a.toNat ≤ b.toNat) :
    calib { r with raw := a } ≤ calib { r with raw := b } := by
  have hmul : (a.toNat : Int) * r.scale.toNat ≤ b.toNat * r.scale.toNat := by
    exact_mod_cast Nat.mul_le_mul_right _ h
  simpa [calib] using hmul

theorem calib_strictMono_raw (r : ChanRegs) {a b : Byte} (hscale : 0 < r.scale.toNat) (h : a.toNat < b.toNat) :
    calib { r with raw := a } < calib { r with raw := b } := by
  have hmul : (a.toNat : Int) * r.scale.toNat < b.toNat * r.scale.toNat := by
    exact_mod_cast Nat.mul_lt_mul_of_pos_right h hscale
  simpa [calib] using hmul

/-- R29's default SCALE is positive for every legal DEN. -/
theorem defaultScale_pos {p : Params} (h : p.wf = true) (c : Channel) : 0 < (defaultScale p c).toNat := by
  obtain ⟨⟨hD, -⟩, ⟨hY, hYdvd, hYle⟩, ⟨hP, hPdvd, hPle⟩, -⟩ := p.wf_iff.mp h
  cases c with
  | distance =>
    have := defaultScale_distance h
    omega
  | yaw =>
    have := halfDen_toNat hYdvd hYle
    rw [defaultScale]
    omega
  | pitch =>
    have := halfDen_toNat hPdvd hPle
    rw [defaultScale]
    omega

/-- Settles O32: the raw byte is multiplied by SCALE, which is unsigned, and positive at the default configuration. -/
theorem calibrationMonotone : Obligations.CalibrationMonotone := by
  refine ⟨fun r a b => calib_mono_raw r, fun p c a b hwf hlt => ?_⟩
  rw [regs_resetWith]
  exact calib_strictMono_raw _ (defaultScale_pos hwf c) hlt

/-! ### VAL -/

/-- CALV(c) is in range: it is copied to OUT(c), and oor[c] is cleared (R136). -/
theorem validate_of_inRange {c : Channel} {s : State}
    (h : (s.regs c).min.toInt ≤ (s.regs c).calv.toInt ∧ (s.regs c).calv.toInt ≤ (s.regs c).max.toInt) :
    validate c s = { s with
      chan := s.chan.set c { s.chan.get c with out := (s.regs c).calv }, oor := s.oor.set c false } := by
  rw [validate_eq, (inRange_iff _ _).mpr h]
  rfl

/-- CALV(c) is out of range: OUT(c) takes the sentinel, and oor[c] is set (R136). -/
theorem validate_of_not_inRange {c : Channel} {s : State}
    (h : ¬ ((s.regs c).min.toInt ≤ (s.regs c).calv.toInt ∧ (s.regs c).calv.toInt ≤ (s.regs c).max.toInt)) :
    validate c s = { s with
      chan := s.chan.set c { s.chan.get c with out := 0 }, oor := s.oor.set c true } := by
  rw [validate_eq, Bool.eq_false_iff.mpr (mt (inRange_iff _ _).mp h)]
  rfl

/-- Settles O33: VAL is `validate`, whose two branches are the two outcomes. -/
theorem valRule136 : Obligations.ValRule136 :=
  ⟨⟨decode_encode (.val .distance), decode_encode (.val .yaw), decode_encode (.val .pitch)⟩,
    fun _ _ => ⟨fun h => congrArg _ (validate_of_inRange h), fun h => congrArg _ (validate_of_not_inRange h)⟩⟩

/-- oor[c] after VAL tells whether CALV(c) was in range (R137 (c)). -/
theorem oor_validate_eq_false_iff (c : Channel) (s : State) :
    (validate c s).oor.get c = false ↔
      (s.regs c).min.toInt ≤ (s.regs c).calv.toInt ∧ (s.regs c).calv.toInt ≤ (s.regs c).max.toInt := by
  rw [validate_eq, PerChannel.get_set_same, Bool.not_eq_false', inRange_iff]

theorem out_validate_of_oor_eq_false {c : Channel} {s : State} (h : (validate c s).oor.get c = false) :
    ((validate c s).regs c).out = (s.regs c).calv := by
  rw [validate_of_inRange ((oor_validate_eq_false_iff c s).mp h), State.regs, PerChannel.get_set_same]

theorem sentinel_of_not_inRange {c : Channel} {s : State}
    (h : ¬ ((s.regs c).min.toInt ≤ (s.regs c).calv.toInt ∧ (s.regs c).calv.toInt ≤ (s.regs c).max.toInt)) :
    ((validate c s).regs c).out = 0 ∧ (validate c s).oor.get c = true := by
  rw [validate_of_not_inRange h, State.regs, PerChannel.get_set_same, PerChannel.get_set_same]
  exact ⟨rfl, rfl⟩

/-- Settles O34: each corner is a case of the range check on CALV(c), which oor[c] reports. -/
theorem valCornersRule137 : Obligations.ValCornersRule137 := by
  intro c s
  refine ⟨validate c s, rfl, fun hcrossed => sentinel_of_not_inRange (by omega), fun hsingle => ?_,
    fun hzero hmin hmax => ?_, fun hout => sentinel_of_not_inRange (by omega), out_validate_of_oor_eq_false⟩
  · rw [oor_validate_eq_false_iff, ← hsingle, ← BitVec.toInt_inj]
    omega
  · have hclear : (validate c s).oor.get c = false := by
      rw [oor_validate_eq_false_iff, hzero]
      exact ⟨hmin, hmax⟩
    exact ⟨(out_validate_of_oor_eq_false hclear).trans hzero, hclear⟩

/-! ### CALVAL -/

/-- Settles O35: CALV(c) takes the code as CAL computes it, and the range check is on that code. -/
theorem calvalRule140 : Obligations.CalvalRule140 := by
  refine ⟨⟨decode_encode (.calval .distance), decode_encode (.calval .yaw), decode_encode (.calval .pitch)⟩,
    fun c s => ⟨BitVec.ofInt 32 (calib (s.regs c)), calib_toInt (s.regs c), fun h => ?_, fun h => ?_⟩⟩
  · rw [calib_toInt] at h
    have hin : inRange (s.regs c) (calib (s.regs c)) = true := (inRange_iff _ _).mpr h
    exact congrArg _ ((calval_eq c s).trans (by rw [hin]; rfl))
  · rw [calib_toInt] at h
    have hout : inRange (s.regs c) (calib (s.regs c)) = false := Bool.eq_false_iff.mpr (mt (inRange_iff _ _).mp h)
    exact congrArg _ ((calval_eq c s).trans (by rw [hout]; rfl))

theorem calv_calval_toInt (c : Channel) (s : State) :
    ((validate c (calibrate c s)).regs c).calv.toInt = calib (s.regs c) := by
  rw [regs_validate_same, regs_calibrate_same]
  exact calib_toInt _

/-- CALVAL shows the exact code, or the sentinel for a code out of range (R140). -/
theorem out_calval_toInt (c : Channel) (s : State) :
    ((validate c (calibrate c s)).regs c).out.toInt =
      if (s.regs c).min.toInt ≤ calib (s.regs c) ∧ calib (s.regs c) ≤ (s.regs c).max.toInt then calib (s.regs c)
      else 0 := by
  simp only [regs_validate_same, regs_calibrate_same, calib_toInt, inRange_iff]
  split
  · exact calib_toInt _
  · rfl

theorem calib_of_scale_one {r : ChanRegs} (h : r.scale = 1) :
    calib r = r.raw.toNat + r.bias.toInt + r.offset.toInt := by
  simp [calib, h]

/-- R29's integers for distance at R7's default DEN_D = 10. -/
theorem reset_distance_config : (State.reset.regs .distance).bias.toInt = 0 ∧
    (State.reset.regs .distance).min.toInt = 0 ∧ (State.reset.regs .distance).max.toInt = 205 := by decide

/-- R29's integers for an angle at R7's default DEN = 2. -/
theorem reset_angle_config {c : Channel} (h : c ≠ .distance) : (State.reset.regs c).bias.toInt = -80 ∧
    (State.reset.regs c).min.toInt = -60 ∧ (State.reset.regs c).max.toInt = 60 := by
  revert h
  cases c <;> decide

/-- Settles O36: at the defaults SCALE is 1, BIAS is 0 or −80, and the bounds are 0 and 205, or −60 and 60. -/
theorem calvalAtDefaultsRule143 : Obligations.CalvalAtDefaultsRule143 := by
  intro c s o hregs
  have hconfig : (s.regs c).scale = 1 ∧ (s.regs c).bias = (State.reset.regs c).bias ∧ (s.regs c).offset = o ∧
      (s.regs c).min = (State.reset.regs c).min ∧ (s.regs c).max = (State.reset.regs c).max := by
    rw [hregs]
    exact ⟨by cases c <;> rfl, rfl, rfl, rfl, rfl⟩
  obtain ⟨hscale, hbias, hoffset, hmin, hmax⟩ := hconfig
  refine ⟨validate c (calibrate c s), rfl, ?_⟩
  rw [calv_calval_toInt, out_calval_toInt, calib_of_scale_one hscale, hbias, hoffset, hmin, hmax]
  have hangle := @reset_angle_config c
  cases c with
  | distance =>
    obtain ⟨hb, hlo, hhi⟩ := reset_distance_config
    rw [hb, hlo, hhi, add_zero]
    exact ⟨rfl, rfl⟩
  | yaw | pitch =>
    obtain ⟨hb, hlo, hhi⟩ := hangle nofun
    rw [hb, hlo, hhi, ← sub_eq_add_neg]
    exact ⟨rfl, rfl⟩

end Sys2Proof.Machine
end

section
/-! Proofs: what CAL, VAL and CALVAL leave unchanged (41_calibrator.md R139). -/

namespace Sys2Proof.Machine

/-- The calibrator's commands on channel c (R131, R136, R140). -/
def CalibratorCommand (c : Channel) (i : Instr) : Prop := i = .cal c ∨ i = .val c ∨ i = .calval c

/-! ### The state -/

/-- They write the channels' registers and the OOR bits only. -/
theorem CalibratorCommand.frame {c : Channel} {i : Instr} {s t : State} (hi : CalibratorCommand c i)
    (h : exec i s = .next t) : t = { s with chan := t.chan, oor := t.oor } := by
  obtain rfl | rfl | rfl := hi <;> cases h
  · rfl
  · rw [validate_eq]
  · rw [calval_eq]

/-! ### The registers of the window -/

/-- Another channel's registers are not written. -/
theorem CalibratorCommand.regs_ne {c d : Channel} {i : Instr} {s t : State} (hi : CalibratorCommand c i)
    (h : exec i s = .next t) (hd : d ≠ c) : t.regs d = s.regs d := by
  obtain rfl | rfl | rfl := hi <;> cases h
  · exact regs_calibrate_ne s hd
  · exact regs_validate_ne s hd
  · exact (regs_validate_ne _ hd).trans (regs_calibrate_ne s hd)

/-- Of its own channel's registers only CALV and OUT are written. -/
theorem CalibratorCommand.readChanReg_eq {c : Channel} {i : Instr} {s t : State} {k : ChanReg}
    (hi : CalibratorCommand c i) (h : exec i s = .next t) (hcalv : k ≠ .calv) (hout : k ≠ .out) :
    readChanReg (t.regs c) k = readChanReg (s.regs c) k := by
  have hw := exec_writesAsListed h c
  have hne : i ≠ .parse ∧ i ≠ .decode := by
    obtain rfl | rfl | rfl := hi <;> exact ⟨nofun, nofun⟩
  obtain ⟨hparse, hdecode⟩ := hne
  cases k with
  | raw => simp only [readChanReg, hw.raw hparse hdecode]
  | scale => simp only [readChanReg, hw.scale]
  | bias => simp only [readChanReg, hw.bias]
  | offset => simp only [readChanReg, hw.offset]
  | min => exact hw.min
  | max => exact hw.max
  | calv => exact absurd rfl hcalv
  | out => exact absurd rfl hout

/-- Every register of the window but CALV(c), OUT(c) and STATUS reads as before (R139). -/
theorem CalibratorCommand.readReg_eq {c : Channel} {i : Instr} {s t : State} {r : Reg}
    (hi : CalibratorCommand c i) (h : exec i s = .next t) (hcalv : r ≠ .chan c .calv) (hout : r ≠ .chan c .out)
    (hstatus : r ≠ .status) : readReg r t = readReg r s := by
  cases r with
  | cmd | reqFrame => rfl
  | status => exact absurd rfl hstatus
  | bank j =>
    rw [hi.frame h]
    rfl
  | chan d k =>
    by_cases hd : d = c
    · subst hd
      exact hi.readChanReg_eq h (fun hk => hcalv (by rw [hk])) (fun hk => hout (by rw [hk]))
    · simp only [readReg, hi.regs_ne h hd]

/-! ### The bits of STATUS -/

/-- Bits 31:11 of STATUS lie above the OOR bits and the low byte (R32). -/
theorem getLsbD_statusWord_high (s : State) {k : Nat} (h : 11 ≤ k) :
    (statusWord s).getLsbD k = (s.rxCount ++ s.sfLen ++ (0 : BitVec 5)).getLsbD (k - 11) := by
  rw [statusWord, BitVec.getLsbD_append (m := 8), if_neg (by omega), BitVec.getLsbD_append (m := 3),
    if_neg (by omega), Nat.sub_sub]

/-- Bit 8 + c of STATUS is OOR[c] (R32). -/
theorem status_oorBit (s : State) (c : Channel) :
    (readReg .status s).getLsbD (8 + c.toCh.toNat) = s.oor.get c := by
  cases c
  · exact status_oorBits s 0 (by decide)
  · exact status_oorBits s 1 (by decide)
  · exact status_oorBits s 2 (by decide)

theorem exists_channel_toCh {k : Nat} (h : k < 3) : ∃ c : Channel, c.toCh.toNat = k := by
  interval_cases k
  · exact ⟨.distance, rfl⟩
  · exact ⟨.yaw, rfl⟩
  · exact ⟨.pitch, rfl⟩

/-- Where a state has changed in registers and OOR bits only, a bit of STATUS is as before unless it is OOR[d] and has
itself changed. -/
theorem statusBit_eq {s t : State} {k : Nat} (hframe : t = { s with chan := t.chan, oor := t.oor })
    (hoor : ∀ d : Channel, k = 8 + d.toCh.toNat → t.oor.get d = s.oor.get d) :
    (readReg .status t).getLsbD k = (readReg .status s).getLsbD k := by
  by_cases hlow : k < 8
  · have hbyte : statusLow t = statusLow s := by
      rw [hframe]
      rfl
    rw [readReg, readReg, getLsbD_statusWord_low t hlow, getLsbD_statusWord_low s hlow, hbyte]
  · by_cases hhigh : 11 ≤ k
    · have hrx : t.rxCount = s.rxCount := by rw [hframe]
      have hsf : t.sfLen = s.sfLen := by rw [hframe]
      rw [readReg, readReg, getLsbD_statusWord_high t hhigh, getLsbD_statusWord_high s hhigh, hrx, hsf]
    · obtain ⟨d, hd⟩ := exists_channel_toCh (k := k - 8) (by omega)
      obtain rfl : k = 8 + d.toCh.toNat := by omega
      rw [status_oorBit, status_oorBit]
      exact hoor d rfl

/-- OOR[d] of another channel is not written, and CAL writes none. -/
theorem CalibratorCommand.not_writesOut {c d : Channel} {i : Instr} (hi : CalibratorCommand c i)
    (h : d ≠ c ∨ i = .cal c) (s : State) : ¬ CommandWritesOut d i s := by
  obtain rfl | rfl | rfl := hi
  · simp [CommandWritesOut]
  · simpa [CommandWritesOut, eq_comm] using h
  · simpa [CommandWritesOut, eq_comm] using h

/-- Settles O37: of what the window shows, a calibrator's command writes only CALV(c), OUT(c) and OOR[c]. -/
theorem channelCommandFrame : Obligations.ChannelCommandFrame := by
  intro c i s hi
  have hi : CalibratorCommand c i := hi
  obtain ⟨t, ht⟩ := exec_completes i s
  have hw := exec_writesAsListed ht c
  refine ⟨t, ht, fun r => hi.readReg_eq ht, ?_, ?_, fun k hk => ?_, hi.frame ht⟩
  · rintro rfl
    exact hw.out nofun nofun nofun
  · rintro rfl
    exact hw.calv nofun nofun nofun
  · refine statusBit_eq (hi.frame ht) fun d hd => (exec_statusAfterCommand ht).oor d (hi.not_writesOut ?_ s)
    refine hk.imp_left fun hne hdc => hne ?_
    rw [hd, hdc]

end Sys2Proof.Machine
end

section
/-! Proofs: once locked, the configuration stays as it is until reset (10_state.md R30, 20_memory.md R58, 42_control.md
R166). -/

namespace Sys2Proof.Machine

/-! ### The registers under the lock -/

/-- SCALE, BIAS, MIN and MAX, the registers marked L (R55), are the same in r and r'. -/
structure SameLockedRegs (r r' : ChanRegs) : Prop where
  scale : r'.scale = r.scale
  bias : r'.bias = r.bias
  min : r'.min = r.min
  max : r'.max = r.max

theorem SameLockedRegs.of_eq {r r' : ChanRegs} (h : r' = r) : SameLockedRegs r r' := by
  subst h
  exact ⟨rfl, rfl, rfl, rfl⟩

/-- No command writes a configuration register (R22). -/
theorem WritesAsListed.sameLockedRegs {i : Instr} {c : Channel} {r r' : ChanRegs} (h : WritesAsListed i c r r') :
    SameLockedRegs r r' := ⟨h.scale, h.bias, h.min, h.max⟩

/-- A store that the lock does not cover goes to none of the four (R55). -/
theorem storeChanReg_sameLockedRegs (r : ChanRegs) {c : Channel} {k : ChanReg} (v : Word)
    (hk : lockable (.chan c k) = false) : SameLockedRegs r (storeChanReg r k v) := by
  cases k with
  | scale | bias | min | max => cases hk
  | raw | offset | calv | out => exact ⟨rfl, rfl, rfl, rfl⟩

/-! ### Every step but reset -/

theorem Takes.sameLockedRegs {s t : State} (h : Takes s t) (hs : s.cfgLock = true) (hr : nextIsReset s = false)
    (c : Channel) : SameLockedRegs (s.regs c) (t.regs c) := by
  cases h with
  | idle | readOk | readErr | writeBusError | writeLocked | illegal | rx => exact .of_eq rfl
  | tx rest =>
    rw [takeByte_eq]
    exact .of_eq rfl
  | reset rest hp => simp [nextIsReset, hp] at hr
  | command i u addr v rest _ _ _ _ hx => exact (exec_writesAsListed hx c).sameLockedRegs
  | store d k addr v rest _ _ _ _ _ hl =>
    have hfree : lockable (.chan d k) = false := Bool.eq_false_iff.mpr fun hlock => by simp [hl hlock] at hs
    by_cases hcd : c = d
    · subst hcd
      simpa [State.regs] using storeChanReg_sameLockedRegs (s.regs c) v hfree
    · exact .of_eq (PerChannel.get_set_ne _ _ hcd)

/-- Only reset clears cfg_lock (R37). -/
theorem step_keeps_cfgLock {s t : State} (h : step s = .next t) (hs : s.cfgLock = true)
    (hr : nextIsReset s = false) : t.cfgLock = true := by
  cases hc : nextCommand s with
  | none => exact ((step_takes h).statusWithoutCommand hc hr).cfgLock.trans hs
  | some i =>
    obtain ⟨rest, u, hx, rfl, -, -⟩ := (step_takes h).of_nextCommand hc
    exact (exec_statusAfterCommand hx).cfgLock_stays hs

/-- Settles O47: no command writes these registers, a locked store to one is refused, and no other step reaches them. -/
theorem lockedConfigurationIsImmutable : Obligations.LockedConfigurationIsImmutable := by
  intro s t h hs hr
  refine ⟨step_keeps_cfgLock h hs hr, fun c => ?_⟩
  obtain ⟨hscale, hbias, hmin, hmax⟩ := (step_takes h).sameLockedRegs hs hr c
  exact ⟨hscale, hbias, hmin, hmax⟩

end Sys2Proof.Machine
end

section
/-! Proofs: the write to CMD as a step, and the control commands NOP, CLR_STATUS and LOCK_CFG (42_control.md R160 to
R162, R165, R166). -/

namespace Sys2Proof.Machine

/-! ### The write to CMD -/

theorem executeCommand_of_legal {w : Word} {i : Instr} (h : decode w = .ok i) (s : State) :
    executeCommand w s = exec i s := by
  rw [executeCommand, h]

/-- An illegal word raises IllegalCommand and does nothing else (R162). -/
theorem executeCommand_of_illegal {w : Word} {e : IllegalWord} (h : decode w = .error e) (s : State) :
    executeCommand w s = .next { s with errIllegalCmd := true } := by
  rw [executeCommand, h]
  rfl

/-- A scheduled write of a legal word runs its command and adds the reply OK (R53, R160). -/
theorem step_writeCmd_legal {s t : State} {w : Word} {i : Instr} {rest : List AgentStep} (hs : Ready s)
    (hp : s.pending = .hostWrite s.params.blockBase .four w :: rest) (hw : decode w = .ok i)
    (hx : exec i { s with pending := rest } = .next t) :
    step s = .next { t with replies := t.replies ++ [.write .ok] } := by
  rw [step_writeCmd hs hp, executeCommand_of_legal hw, hx]
  rfl

/-- Placing a command's own word schedules the write of that word (log 10). -/
theorem withFetchWord_encode (s : State) (i : Instr) :
    s.withFetchWord 32 (encode i).toNat = placeCommand (encode i) s := by
  rw [State.withFetchWord, Nat.mod_eq_of_lt (encode i).isLt, BitVec.ofNat_toNat, BitVec.setWidth_eq]

/-- Settles O4: a legal word's write is dispatched to `exec`, and a placed command is such a write. -/
theorem stepRunsWrittenCommand : Obligations.StepRunsWrittenCommand := by
  refine ⟨fun s t w i rest => step_writeCmd_legal, fun s t i hs hx => ?_⟩
  rw [withFetchWord_encode]
  exact step_writeCmd_legal (s := placeCommand (encode i) s) hs rfl (decode_encode i) hx

/-- Settles O5: an illegal word's write raises IllegalCommand and is answered OK. -/
theorem stepOfIllegalWordSetsOneBit : Obligations.StepOfIllegalWordSetsOneBit := by
  refine ⟨fun s w e rest hs hp hw => ?_, by decide⟩
  rw [step_writeCmd hs hp, executeCommand_of_illegal hw]
  rfl

/-! ### NOP -/

/-- NOP is the only command whose word has OP = 0 (R86). -/
theorem eq_nop_of_op_zero {i : Instr} (h : (encode i).toNat % 256 = 0) : i = .nop := by
  cases i with
  | nop => rfl
  | cal c | val c | calval c => cases c <;> exact absurd h (by decide)
  | _ => exact absurd h (by decide)

/-- Settles O38: a legal word is its command's own, and no other command's has OP = 0. -/
theorem nopRule161 : Obligations.NopRule161 := by
  refine ⟨decode_encode .nop, fun w i hop hw => ?_, fun _ => rfl⟩
  obtain rfl := (decode_eq_ok_iff w i).mp hw
  rw [eq_nop_of_op_zero hop]
  rfl

/-! ### CLR_STATUS and LOCK_CFG -/

/-- Bits 5:1 of STATUS are the five sticky bits, bit k + 1 that of cause code k + 1 (R32). -/
theorem status_stickyBit (s : State) (k : Fin 5) : (readReg .status s).getLsbD (1 + k) = sticky k s := by
  rw [status_lowBits s (1 + k) (by omega)]
  fin_cases k <;> rfl

/-- With no error recorded, STATUS bits 5:1 read 0. -/
theorem status_stickyField_eq_zero {s : State} (h : ∀ k, sticky k s = false) :
    (readReg .status s).extractLsb' 1 5 = 0 := by
  refine BitVec.eq_of_getLsbD_eq fun k hk => ?_
  rw [BitVec.getLsbD_extractLsb', status_stickyBit s ⟨k, hk⟩, h]
  simp

/-- Settles O41: CLR_STATUS is `clearErrors`, and STATUS shows the sticky bits and SF_LEN in the fields named. -/
theorem clrStatusRule165 : Obligations.ClrStatusRule165 :=
  ⟨decode_encode .clrStatus, fun s =>
    ⟨clearErrors s, rfl, sticky_clearErrors s, status_stickyField_eq_zero (sticky_clearErrors s),
      status_sfLen (clearErrors s), rfl⟩⟩

/-- Settles O42: on a locked block the lock is already what LOCK_CFG writes. -/
theorem lockCfgSetsLock : Obligations.LockCfgSetsLock := by
  refine ⟨decode_encode .lockCfg, fun _ => rfl, fun s hs => ?_⟩
  rw [exec, execLockCfg, ← hs]

end Sys2Proof.Machine
end

section
/-! Proofs: DECODE is PARSE and then CALVAL on the three channels, in any order (42_control.md R163, R164). -/

namespace Sys2Proof.Machine

/-! ### DECODE's effect -/

/-- On a 14-byte frame DECODE goes on from the state PARSE ends in (R163). -/
theorem exec_decode_of_exec_parse {s s0 : State} (hn : s.rxCount = 14) (hparse : exec .parse s = .next s0) :
    exec .decode s = .next (calvalAll s0) := by
  obtain rfl : parseFrame s = s0 := Host.Outcome.next.inj hparse
  exact exec_decode_good hn

/-- What CALVAL leaves in channel c's registers r and oor[c] (R140): CALV is the exact code of the registers, and OUT
and oor[c] tell whether it is in range. -/
structure Calibrated (r : ChanRegs) (oor : Bool) : Prop where
  calv : r.calv.toInt = r.raw.toNat * r.scale.toNat + r.bias.toInt + r.offset.toInt
  accepted : r.min.toInt ≤ r.calv.toInt ∧ r.calv.toInt ≤ r.max.toInt → r.out = r.calv ∧ oor = false
  rejected : ¬ (r.min.toInt ≤ r.calv.toInt ∧ r.calv.toInt ≤ r.max.toInt) → r.out = 0 ∧ oor = true

theorem calvalAll_calibrated (s : State) (c : Channel) :
    Calibrated ((calvalAll s).regs c) ((calvalAll s).oor.get c) := by
  obtain ⟨hregs, hoor⟩ := calvalAll_channel s c
  rw [hregs, hoor]
  refine ⟨calib_toInt (s.regs c), fun hin => ?_, fun hout => ?_⟩
  · have hcheck := (inRange_iff (s.regs c) (calib (s.regs c))).mpr (by simpa only [calib_toInt] using hin)
    simp [hcheck]
  · have hcheck := mt (inRange_iff (s.regs c) (calib (s.regs c))).mp (by simpa only [calib_toInt] using hout)
    simp [hcheck]

/-- Settles O39: DECODE keeps what PARSE has loaded, and calibrates each channel from it. -/
theorem decodeRule163 : Obligations.DecodeRule163 := by
  obtain ⟨-, hgood, -⟩ := parseRule108
  refine ⟨decode_encode .decode, fun s hn => ?_, fun s hn => exec_decode_short hn⟩
  obtain ⟨u, hparse, hdistance, hyaw, hpitch, hbank, hregs, hframe⟩ := hgood s hn
  refine ⟨calvalAll u, exec_decode_of_exec_parse hn hparse, ?_, ?_, ?_, ?_, fun c => ?_, ?_⟩
  · rw [(calvalAll_channel u .distance).1, hdistance]
  · rw [(calvalAll_channel u .yaw).1, hyaw]
  · rw [(calvalAll_channel u .pitch).1, hpitch]
  · rw [calvalAll_eq]
    exact hbank
  · obtain ⟨hcalv, hin, hout⟩ := calvalAll_calibrated u c
    refine ⟨?_, hcalv, hin, hout⟩
    rw [(calvalAll_channel u c).1, hregs]
  · rw [calvalAll_eq, hframe]

/-! ### The order of the channels -/

/-- CALVAL on each channel of a list in turn. -/
def calvals (cs : List Channel) (s : State) : State := cs.foldl (fun u c => validate c (calibrate c u)) s

theorem calvalAll_eq_calvals (s : State) : calvalAll s = calvals [.distance, .yaw, .pitch] s := by
  simp only [calvalAll, calvals, List.foldl]

/-- CALVAL on one channel neither reads nor writes what CALVAL on another writes (R139). -/
theorem calval_comm (c d : Channel) (s : State) :
    validate d (calibrate d (validate c (calibrate c s))) = validate c (calibrate c (validate d (calibrate d s))) := by
  by_cases h : c = d
  · rw [h]
  · simp only [calval_eq, State.regs, PerChannel.get_set_ne _ _ h, PerChannel.get_set_ne _ _ (Ne.symm h),
      PerChannel.set_comm _ _ _ h]
    rfl

theorem calvals_perm {cs ds : List Channel} (h : cs.Perm ds) (s : State) : calvals cs s = calvals ds s :=
  h.foldl_eq' (fun c _ d _ u => calval_comm c d u) s

/-- Three different channels are all the channels. -/
theorem perm_allChannels {cs : List Channel} (hlen : cs.length = 3) (h : cs.Nodup) :
    cs.Perm [.distance, .yaw, .pitch] :=
  (h.subperm fun c _ => by cases c <;> decide).perm_of_length_le hlen.ge

/-- Settles O40: CALVALs on different channels commute, so their order does not show. -/
theorem decodeIsParseThenCalvals : Obligations.DecodeIsParseThenCalvals := by
  intro s s0 s1 s2 s3 c1 c2 c3 hn hnodup hparse h1 h2 h3
  have hcalvals : calvals [c1, c2, c3] s0 = s3 := by
    cases h1
    cases h2
    cases h3
    rfl
  rw [exec_decode_of_exec_parse hn hparse, calvalAll_eq_calvals, ← hcalvals,
    calvals_perm (perm_allChannels rfl hnodup)]

end Sys2Proof.Machine
end

section
/-! Proofs: the errors a step records (60_exceptions.md R181, R185, R188, R189), and BUILD_REQ (40_frame_codec.md
R106). -/

namespace Sys2Proof.Machine

/-! ### BUILD_REQ -/

/-- Settles O23: the two branches of `execBuildReq`. -/
theorem buildReqRule106 : Obligations.BuildReqRule106 :=
  ⟨decode_encode .buildReq, fun _ hidle => if_neg (by simp [hidle]), fun _ hbusy => if_pos hbusy⟩

/-! ### The errors recorded by a step -/

/-- The sticky bit of an error, by number as in `sticky` (R181). -/
def Error.stickyBit : Error → Fin 5
  | .shortFrame _ => 0
  | .illegalCommand _ => 1
  | .busError _ => 2
  | .cfgLocked _ => 3
  | .txOverrun => 4

/-- Raising an error sets its own sticky bit and keeps the other four (R181). -/
theorem sticky_raise (e : Error) (s : State) (k : Fin 5) :
    sticky k (raise e s) = (sticky k s || e.stickyBit == k) := by
  cases e <;> fin_cases k <;> simp [sticky, raise, Error.stickyBit]

/-- The sticky bits of t are those of s after raising e, if e is an error, and those of s if it is none. -/
def Records (e : Option Error) (s t : State) : Prop := ∀ k, sticky k t = sticky k (e.elim s (raise · s))

theorem Records.keeps {e : Option Error} {s t : State} (h : Records e s t) {k : Fin 5} (hs : sticky k s = true) :
    sticky k t = true := by
  rw [h k]
  cases e with
  | none => exact hs
  | some err => rw [Option.elim_some, sticky_raise, hs, Bool.true_or]

/-- A bit that is newly set is the raised error's. -/
theorem Records.stickyBit_of_new {e : Option Error} {s t : State} (h : Records e s t) {k : Fin 5}
    (hs : sticky k s = false) (ht : sticky k t = true) : e.map Error.stickyBit = some k := by
  rw [h k] at ht
  cases e with
  | none => cases hs.symm.trans ht
  | some err => simpa [sticky_raise, hs] using ht

/-- Only the sticky bits of the two states count. -/
theorem Records.congr {e : Option Error} {s s' t t' : State} (h : Records e s t)
    (hs : ∀ k, sticky k s' = sticky k s) (ht : ∀ k, sticky k t' = sticky k t) : Records e s' t' := by
  intro k
  rw [ht, h k]
  cases e with
  | none => exact (hs k).symm
  | some err => simp only [Option.elim_some, sticky_raise, hs]

/-- PARSE raises ShortFrame on a frame of any length but 14, and else nothing (R180). -/
theorem parseFrame_records (s : State) : ∃ e, Records e s (parseFrame s) := by
  by_cases hn : s.rxCount = 14
  · rw [parseFrame_good hn]
    exact ⟨none, fun _ => rfl⟩
  · rw [parseFrame_short hn]
    exact ⟨some (.shortFrame s.rxCount), fun _ => rfl⟩

/-- The calibrator raises nothing (R139). -/
theorem sticky_validate (c : Channel) (s : State) (k : Fin 5) : sticky k (validate c s) = sticky k s := by
  rw [validate_eq]
  rfl

theorem sticky_calibrate (c : Channel) (s : State) (k : Fin 5) : sticky k (calibrate c s) = sticky k s := rfl

theorem sticky_calvalAll (s : State) (k : Fin 5) : sticky k (calvalAll s) = sticky k s := by
  simp only [calvalAll, sticky_validate, sticky_calibrate]

/-- A command but CLR_STATUS raises at most one error: ShortFrame by PARSE and DECODE, TxOverrun by BUILD_REQ. -/
theorem exec_records {i : Instr} {s t : State} (h : exec i s = .next t) (hclr : i ≠ .clrStatus) :
    ∃ e, Records e s t := by
  cases i with
  | clrStatus => exact absurd rfl hclr
  | nop | rxClear | cal | lockCfg =>
    cases h
    exact ⟨none, fun _ => rfl⟩
  | val c =>
    cases h
    exact ⟨none, sticky_validate c s⟩
  | calval c =>
    cases h
    exact ⟨none, sticky_validate c (calibrate c s)⟩
  | buildReq =>
    obtain ⟨-, hidle, hbusy⟩ := buildReqRule106
    cases hp : s.txPending with
    | false =>
      cases (hidle s hp).symm.trans h
      exact ⟨none, fun _ => rfl⟩
    | true =>
      cases (hbusy s hp).symm.trans h
      exact ⟨some .txOverrun, fun _ => rfl⟩
  | parse =>
    cases h
    exact parseFrame_records s
  | decode =>
    by_cases hn : s.rxCount = 14
    · obtain rfl := Host.Outcome.next.inj ((exec_decode_good hn).symm.trans h)
      obtain ⟨e, he⟩ := parseFrame_records s
      exact ⟨e, he.congr (fun _ => rfl) (sticky_calvalAll (parseFrame s))⟩
    · obtain rfl := Host.Outcome.next.inj ((exec_decode_short hn).symm.trans h)
      exact ⟨some (.shortFrame s.rxCount), fun _ => rfl⟩

/-- Each kind of step but reset and CLR_STATUS, with the error it raises (R182 to R185). -/
theorem Takes.records {s t : State} (h : Takes s t) (hr : nextIsReset s = false)
    (hclr : nextCommand s ≠ some .clrStatus) : ∃ e, Records e s t := by
  cases h with
  | idle | readOk | store | rx => exact ⟨none, fun _ => rfl⟩
  | tx =>
    rw [takeByte_eq]
    exact ⟨none, fun _ => rfl⟩
  | readErr _ _ a | writeBusError _ _ _ a => exact ⟨some (.busError a), fun _ => rfl⟩
  | writeLocked _ _ _ a => exact ⟨some (.cfgLocked a), fun _ => rfl⟩
  | illegal _ v => exact ⟨some (.illegalCommand v), fun _ => rfl⟩
  | command i u _ _ rest _ hc _ _ hx =>
    obtain ⟨e, he⟩ := exec_records hx fun hi => hclr (hi ▸ hc)
    exact ⟨e, he.congr (fun _ => rfl) fun _ => rfl⟩
  | reset rest hp => simp [nextIsReset, hp] at hr

/-- Settles O45: recording an error clears none. -/
theorem stickyErrorsAccumulate : Obligations.StickyErrorsAccumulate := by
  intro s t h hr hclr k hk
  obtain ⟨e, he⟩ := (step_takes h).records hr hclr
  exact he.keeps hk

theorem sticky_resetBlock (s : State) (k : Fin 5) : sticky k (resetBlock s) = false := sticky_resetWith s.params k

/-- After a reset step and after CLR_STATUS no error is recorded (R165, R210). -/
theorem Takes.sticky_eq_false {s t : State} (h : Takes s t)
    (hclear : nextIsReset s = true ∨ nextCommand s = some .clrStatus) (k : Fin 5) : sticky k t = false := by
  obtain hr | hc := hclear
  · obtain ⟨rest, rfl⟩ := h.of_nextIsReset hr
    exact sticky_resetBlock _ k
  · obtain ⟨rest, u, hx, rfl, -, -⟩ := h.of_nextCommand hc
    exact ((exec_statusAfterCommand hx).cleared rfl).1 k

/-- The receiver, the transmitter and the reset agent set no sticky bit (R100, R104, R210). -/
theorem Takes.sticky_of_port {s t : State} {b : Byte} {rest : List AgentStep} (h : Takes s t)
    (hport : s.pending = .rxPush b :: rest ∨ s.pending = .txTake :: rest ∨ s.pending = .reset :: rest) {k : Fin 5}
    (hk : sticky k s = false) : sticky k t = false := by
  cases h with
  | rx => exact hk
  | tx =>
    rw [takeByte_eq]
    exact hk
  | reset => exact sticky_resetBlock _ k
  | idle hp | readOk _ _ _ _ hp | readErr _ _ _ _ hp | writeBusError _ _ _ _ _ hp | writeLocked _ _ _ _ _ hp
  | store _ _ _ _ _ hp | illegal _ _ _ hp | command _ _ _ _ _ hp =>
    simp [hp] at hport

/-- Settles O46: a step clears all five bits, or two bits it newly sets are both the bit of the one error it raises. -/
theorem oneStepRaisesAtMostOneError : Obligations.OneStepRaisesAtMostOneError := by
  intro s t h
  refine ⟨fun j k hj hj' hk hk' => ?_, fun k b rest hport => (step_takes h).sticky_of_port hport⟩
  by_cases hclear : nextIsReset s = true ∨ nextCommand s = some .clrStatus
  · cases hj'.symm.trans ((step_takes h).sticky_eq_false hclear j)
  · obtain ⟨hr, hclr⟩ := not_or.mp hclear
    obtain ⟨e, he⟩ := (step_takes h).records (by simpa using hr) hclr
    exact Option.some.inj ((he.stickyBit_of_new hj hj').symm.trans (he.stickyBit_of_new hk hk'))

end Sys2Proof.Machine
end

section
/-! Proofs: the reset agent's step, and the host accesses before the first one (70_reset_and_hazards.md R210, R211). -/

namespace Sys2Proof.Machine

/-- The reset agent's step needs no reset before it (R210). -/
theorem step_of_reset {s : State} {rest : List AgentStep} (hwf : s.params.wf = true)
    (hp : s.pending = .reset :: rest) : step s = .next (resetBlock { s with pending := rest }) := by
  simp [step, stepSchedule, hwf, hp, agentStep]

/-- Before the first reset no other agent's step is taken (R211). -/
theorem step_before_reset {s : State} {e : AgentStep} {rest : List AgentStep} (hwf : s.params.wf = true)
    (hfirst : s.hasReset = false) (hp : s.pending = e :: rest) (he : e ≠ .reset) :
    step s = .refused .beforeFirstReset := by
  simp [step, stepSchedule, hwf, hfirst, hp, he]

/-- STATUS shows nothing of rx_buf or of the model's own fields, so it reads as in the reset state (R210). -/
theorem status_resetBlock (s : State) : readReg .status (resetBlock s) = 0 := statusWord_resetWith s.params

theorem resetBlock_ready {s : State} (hwf : s.params.wf = true) : Ready (resetBlock s) := ⟨hwf, rfl⟩

/-- Settles O7: the step is `resetBlock`, which differs from the reset state in rx_buf and the model's own fields. -/
theorem resetStepRestoresResetState : Obligations.ResetStepRestoresResetState := by
  intro s rest hwf hp
  exact ⟨_, step_of_reset hwf hp, rfl, status_resetBlock _, resetBlock_ready hwf⟩

/-- Settles O8: neither host access is the reset agent's step. -/
theorem hostAccessBeforeResetRefused : Obligations.HostAccessBeforeResetRefused := by
  intro s rest addr n v hwf hfirst hp
  obtain hread | hwrite := hp
  · exact step_before_reset hwf hfirst hread nofun
  · exact step_before_reset hwf hfirst hwrite nofun

end Sys2Proof.Machine
end
